-- ==== Sys2Proof/Word.lean ====
section
/-! DEFINITION. The word types of the CHIP-8 core (spec 00_scope.md R7, R9): bytes, 16-bit words, the 12-bit address
field, register numbers, and the two truncations of R9. Every value is unsigned; nothing is sign-extended. -/

namespace Sys2Proof

/-- An 8-bit unsigned value: a V register, a timer, a memory cell (R7 `V_WIDTH`, `TIMER_WIDTH`). -/
abbrev Byte := BitVec 8

/-- A 16-bit unsigned value: pc, I, a stack entry, an opcode (R7 `PC_WIDTH`, `I_WIDTH`, `STACK_ENTRY_WIDTH`). -/
abbrev Word := BitVec 16

/-- The 12-bit address field nnn (30_encoding.md R90). -/
abbrev Addr := BitVec 12

/-- A general register's number, 0x0 to 0xF (10_state.md R20). -/
abbrev Reg := Fin 16

/-- `trunc8(v) = v mod 256` (R9). -/
abbrev trunc8 (v : Nat) : Byte := BitVec.ofNat 8 v

/-- `trunc16(v) = v mod 65536` (R9). -/
abbrev trunc16 (v : Nat) : Word := BitVec.ofNat 16 v

end Sys2Proof
end

