-- ==== Sys2Proof/Config.lean ====
section
/-! DEFINITION. What is fixed for this hardware (spec 00_scope.md R7, 10_state.md R49) and the free values: the two
inputs of a step that the spec leaves under no law, and the host's operations between two steps, with their type. The
font, its base and the dispatch masks, which R7 lists too, stand beside the operations that use them (Machine/Font.lean,
Decode.lean). -/

namespace Sys2Proof.Machine

/-- The host's operations between steps (40_core_cycle.md R120), the reads included. -/
inductive HostOp where
  /-- `tick_timers()` (R133) -/
  | tickTimers
  /-- `consume_redraw_flag()` (R134) -/
  | consumeRedraw
  /-- `framebuffer()` (R135) -/
  | framebuffer
  /-- `status()` -/
  | status
  /-- `unknown_count()` -/
  | unknownCount
  /-- `timers()` -/
  | timers
  /-- `sound_active()` (R136) -/
  | soundActive
  deriving DecidableEq, Repr

end Sys2Proof.Machine

namespace Sys2Proof.Config

/-- `MEM_SIZE`: 4096 bytes, addresses 0x000 to 0xFFF (R7, 20_memory.md R60). -/
abbrev memSize : Nat := 4096

/-- `INSN_BYTES`: every instruction is two bytes wide (R7, 30_encoding.md R98). -/
abbrev insnBytes : Nat := 2

/-- `STACK_DEPTH`: 16 entries (R7, 10_state.md R32). UNVERIFIED: the spec's decision D2. -/
abbrev stackDepth : Nat := 16

/-- `FB_W`: 64 pixels a row (R7, 10_state.md R37). -/
abbrev fbWidth : Nat := 64

/-- `FB_H`: 32 rows (R7, 10_state.md R37). -/
abbrev fbHeight : Nat := 32

/-- `PROG_BASE`: where the program is loaded and where execution starts (R7, 10_state.md R28). -/
abbrev progBase : Nat := 0x200

/-- `PROG_MAX`: the longest program, 0xE00 bytes (R7, 70_reset_and_hazards.md R361). -/
abbrev progMax : Nat := 0xE00

/-- `NUM_KEYS`: keys 0x0 to 0xF (R7, 45_timers_keypad.md R294). -/
abbrev numKeys : Nat := 16

/-- The keypad levels of the first step, and of a step whose host turn the script no longer gives: a FREE VALUE, one for each draw
(10_state.md R45: "constant for the duration of the step"; D33: across steps the keys are free inputs). Log 1. -/
opaque freeKeys : Nat → BitVec 16

/-- The random byte of the first step, and of a step whose host turn the script no longer gives: a FREE VALUE, one for each draw
(10_state.md R46: "a model must prove claims for every value of `rnd`"; D24). Log 1. -/
opaque freeRnd : Nat → Byte

/-- What the host does after a step whose turn the script no longer gives: any operations, in any number and order, a
FREE VALUE, one for each draw (40_core_cycle.md R121: "A model must therefore quantify over every interleaving of host
operations with steps"; 70_reset_and_hazards.md R368). Log 2. -/
opaque freeOps : Nat → List Machine.HostOp

end Sys2Proof.Config
end

