-- ==== Sys2Proof/Syntax.lean ====
section
/-! DEFINITION. The instructions: one constructor per row of spec/opcode_table.json (30_encoding.md R93), in the
table's order, with the fields the row's pattern names (R90). The y nibble of SHR and SHL is kept as an operand, though
no meaning reads it, so that a word and its instruction hold the same bits (R97). -/

namespace Sys2Proof

/-- The 34 instructions of the handler table (R93). -/
inductive Instr where
  /-- 00E0 CLS (R271) -/
  | cls
  /-- 00EE RET (R151) -/
  | ret
  /-- 1nnn JP addr (R152) -/
  | jp (nnn : Addr)
  /-- 2nnn CALL addr (R153) -/
  | call (nnn : Addr)
  /-- 3xkk SE Vx, byte (R156) -/
  | seByte (x : Reg) (kk : Byte)
  /-- 4xkk SNE Vx, byte (R157) -/
  | sneByte (x : Reg) (kk : Byte)
  /-- 5xy0 SE Vx, Vy (R158) -/
  | seReg (x y : Reg)
  /-- 6xkk LD Vx, byte (R191) -/
  | ldByte (x : Reg) (kk : Byte)
  /-- 7xkk ADD Vx, byte (R192) -/
  | addByte (x : Reg) (kk : Byte)
  /-- 8xy0 LD Vx, Vy (R193) -/
  | ldReg (x y : Reg)
  /-- 8xy1 OR Vx, Vy (R194) -/
  | orReg (x y : Reg)
  /-- 8xy2 AND Vx, Vy (R195) -/
  | andReg (x y : Reg)
  /-- 8xy3 XOR Vx, Vy (R196) -/
  | xorReg (x y : Reg)
  /-- 8xy4 ADD Vx, Vy (R197) -/
  | addReg (x y : Reg)
  /-- 8xy5 SUB Vx, Vy (R198) -/
  | subReg (x y : Reg)
  /-- 8xy6 SHR Vx (R199); y is encoded and ignored (R97) -/
  | shr (x y : Reg)
  /-- 8xy7 SUBN Vx, Vy (R200) -/
  | subnReg (x y : Reg)
  /-- 8xyE SHL Vx (R201); y is encoded and ignored (R97) -/
  | shl (x y : Reg)
  /-- 9xy0 SNE Vx, Vy (R159) -/
  | sneReg (x y : Reg)
  /-- Annn LD I, addr (R240) -/
  | ldI (nnn : Addr)
  /-- Bnnn JP V0, addr (R154) -/
  | jpV0 (nnn : Addr)
  /-- Cxkk RND Vx, byte (R202) -/
  | rnd (x : Reg) (kk : Byte)
  /-- Dxyn DRW Vx, Vy, nibble (R272): n is a count of sprite rows, 0 to 15 (`Instr.wf` checks the bound) -/
  | drw (x y : Reg) (n : Nat)
  /-- Ex9E SKP Vx (R160) -/
  | skp (x : Reg)
  /-- ExA1 SKNP Vx (R161) -/
  | sknp (x : Reg)
  /-- Fx07 LD Vx, DT (R290) -/
  | ldVxDT (x : Reg)
  /-- Fx0A LD Vx, K (R291) -/
  | ldVxK (x : Reg)
  /-- Fx15 LD DT, Vx (R292) -/
  | ldDTVx (x : Reg)
  /-- Fx18 LD ST, Vx (R293) -/
  | ldSTVx (x : Reg)
  /-- Fx1E ADD I, Vx (R241) -/
  | addI (x : Reg)
  /-- Fx29 LD F, Vx (R242) -/
  | ldF (x : Reg)
  /-- Fx33 LD B, Vx (R243) -/
  | ldB (x : Reg)
  /-- Fx55 LD [I], Vx (R244) -/
  | ldMemVx (x : Reg)
  /-- Fx65 LD Vx, [I] (R245) -/
  | ldVxMem (x : Reg)
  deriving DecidableEq, Repr

end Sys2Proof
end

