-- ==== Sys2Proof/Decode.lean ====
section
/-! DEFINITION. Decoding and encoding (spec 30_encoding.md): the fields (R90), the dispatch masks (R92), the handler
table (R93), the decoder, total on any bytes, and after it the encoder. -/

namespace Sys2Proof

/-! ## Fields (R90, R91: zero-extended, never scaled) -/

/-- The family: op[15:12]. -/
def fieldFamily (op : Word) : BitVec 4 := op.extractLsb' 12 4

/-- x: op[11:8], a register number. -/
def fieldX (op : Word) : Reg := (op.extractLsb' 8 4).toFin

/-- y: op[7:4], a register number. -/
def fieldY (op : Word) : Reg := (op.extractLsb' 4 4).toFin

/-- n: op[3:0], a count 0 to 15. -/
def fieldN (op : Word) : Nat := (op.extractLsb' 0 4).toNat

/-- kk: op[7:0], an immediate byte. -/
def fieldKK (op : Word) : Byte := op.extractLsb' 0 8

/-- nnn: op[11:0], an address. -/
def fieldNNN (op : Word) : Addr := op.extractLsb' 0 12

/-! ## Dispatch (R92) -/

/-- The mask of a word, chosen by its top nibble (R92). UNVERIFIED: 0xFFFF for the 0 family is the spec's decision D17,
0xF00F for the 5 and 9 families its decision D18. Log 14. -/
def dispatchMask (op : Word) : Word :=
  match (fieldFamily op).toNat with
  | 0x0 => 0xFFFF#16
  | 0x5 => 0xF00F#16
  | 0x8 => 0xF00F#16
  | 0x9 => 0xF00F#16
  | 0xE => 0xF0FF#16
  | 0xF => 0xF0FF#16
  | _ => 0xF000#16

/-- The dispatch key: the word masked (R92). -/
def dispatchKey (op : Word) : Word := op &&& dispatchMask op

/-! ## The handler table (R93) -/

/-- One row of the handler table: its key, its mask, and the instruction it makes of a word's fields. -/
structure OpRow where
  key : Word
  mask : Word
  build : Word → Instr

/-- Rows 00E0 to 7xkk. -/
def opcodeRows0to7 : List OpRow :=
  [ ⟨0x00E0#16, 0xFFFF#16, fun _ => .cls⟩,
    ⟨0x00EE#16, 0xFFFF#16, fun _ => .ret⟩,
    ⟨0x1000#16, 0xF000#16, fun op => .jp (fieldNNN op)⟩,
    ⟨0x2000#16, 0xF000#16, fun op => .call (fieldNNN op)⟩,
    ⟨0x3000#16, 0xF000#16, fun op => .seByte (fieldX op) (fieldKK op)⟩,
    ⟨0x4000#16, 0xF000#16, fun op => .sneByte (fieldX op) (fieldKK op)⟩,
    ⟨0x5000#16, 0xF00F#16, fun op => .seReg (fieldX op) (fieldY op)⟩,
    ⟨0x6000#16, 0xF000#16, fun op => .ldByte (fieldX op) (fieldKK op)⟩,
    ⟨0x7000#16, 0xF000#16, fun op => .addByte (fieldX op) (fieldKK op)⟩ ]

/-- Rows 8xy0 to 9xy0. -/
def opcodeRows8to9 : List OpRow :=
  [ ⟨0x8000#16, 0xF00F#16, fun op => .ldReg (fieldX op) (fieldY op)⟩,
    ⟨0x8001#16, 0xF00F#16, fun op => .orReg (fieldX op) (fieldY op)⟩,
    ⟨0x8002#16, 0xF00F#16, fun op => .andReg (fieldX op) (fieldY op)⟩,
    ⟨0x8003#16, 0xF00F#16, fun op => .xorReg (fieldX op) (fieldY op)⟩,
    ⟨0x8004#16, 0xF00F#16, fun op => .addReg (fieldX op) (fieldY op)⟩,
    ⟨0x8005#16, 0xF00F#16, fun op => .subReg (fieldX op) (fieldY op)⟩,
    ⟨0x8006#16, 0xF00F#16, fun op => .shr (fieldX op) (fieldY op)⟩,
    ⟨0x8007#16, 0xF00F#16, fun op => .subnReg (fieldX op) (fieldY op)⟩,
    ⟨0x800E#16, 0xF00F#16, fun op => .shl (fieldX op) (fieldY op)⟩,
    ⟨0x9000#16, 0xF00F#16, fun op => .sneReg (fieldX op) (fieldY op)⟩ ]

/-- Rows Annn to Fx65. -/
def opcodeRowsAtoF : List OpRow :=
  [ ⟨0xA000#16, 0xF000#16, fun op => .ldI (fieldNNN op)⟩,
    ⟨0xB000#16, 0xF000#16, fun op => .jpV0 (fieldNNN op)⟩,
    ⟨0xC000#16, 0xF000#16, fun op => .rnd (fieldX op) (fieldKK op)⟩,
    ⟨0xD000#16, 0xF000#16, fun op => .drw (fieldX op) (fieldY op) (fieldN op)⟩,
    ⟨0xE09E#16, 0xF0FF#16, fun op => .skp (fieldX op)⟩,
    ⟨0xE0A1#16, 0xF0FF#16, fun op => .sknp (fieldX op)⟩,
    ⟨0xF007#16, 0xF0FF#16, fun op => .ldVxDT (fieldX op)⟩,
    ⟨0xF00A#16, 0xF0FF#16, fun op => .ldVxK (fieldX op)⟩,
    ⟨0xF015#16, 0xF0FF#16, fun op => .ldDTVx (fieldX op)⟩,
    ⟨0xF018#16, 0xF0FF#16, fun op => .ldSTVx (fieldX op)⟩,
    ⟨0xF01E#16, 0xF0FF#16, fun op => .addI (fieldX op)⟩,
    ⟨0xF029#16, 0xF0FF#16, fun op => .ldF (fieldX op)⟩,
    ⟨0xF033#16, 0xF0FF#16, fun op => .ldB (fieldX op)⟩,
    ⟨0xF055#16, 0xF0FF#16, fun op => .ldMemVx (fieldX op)⟩,
    ⟨0xF065#16, 0xF0FF#16, fun op => .ldVxMem (fieldX op)⟩ ]

/-- The handler table: 34 rows (R93). Rows the spec marks G or F are general knowledge there (D35). Log 15. -/
def opcodeTable : List OpRow := opcodeRows0to7 ++ opcodeRows8to9 ++ opcodeRowsAtoF

/-! ## The decoder -/

/-- Why bytes are no instruction. -/
inductive DecodeError where
  /-- No row has the word's dispatch key: the unknown-opcode condition, which the step counts (R94). -/
  | unknownOpcode (op : Word)
  /-- Fewer than two bytes: every instruction is two bytes wide (R98). -/
  | truncated
  deriving DecidableEq, Repr

/-- The instruction a word selects: the row whose key is the word's dispatch key, or unknown (R93, R94, R96). -/
def decodeWord (op : Word) : Except DecodeError Instr :=
  match opcodeTable.find? (fun r => r.key == dispatchKey op) with
  | some r => .ok (r.build op)
  | none => .error (.unknownOpcode op)

/-- The word of two bytes, big-endian: the high byte first (20_memory.md R68). -/
def wordOfBytes (hi lo : Byte) : Word := hi ++ lo

/-- Decode the first instruction of a byte sequence and give the rest of the bytes (R68, R98). -/
def decode : List Byte → Except DecodeError (Instr × List Byte)
  | hi :: lo :: rest =>
    match decodeWord (wordOfBytes hi lo) with
    | .ok i => .ok (i, rest)
    | .error e => .error e
  | [_] => .error .truncated
  | [] => .error .truncated

/-- The bytes of a word as the hardware stores it: the high byte at the lower address (R68). -/
def bytesOfWord (op : Word) : List Byte := [op.extractLsb' 8 8, op.extractLsb' 0 8]

/-- What the decoder reads from the word of an opcode-table row, given as the number `w` of `nbits` bits; every bit
above `nbits` is 0. All 34 rows are one 16-bit word (R98), so bit k of `w` is bit k of that word. -/
def decodeTableWord (nbits w : Nat) : Option Instr :=
  match decode (bytesOfWord (trunc16 (w % 2 ^ nbits))) with
  | .ok (i, _) => some i
  | .error _ => none

/-! ## The encoder: the words of R93's patterns -/

/-- A register number as its 4-bit field. -/
def regBits (r : Reg) : BitVec 4 := BitVec.ofFin r

/-- A word `Fnnn`: the family nibble and a 12-bit address. -/
def packNNN (family : BitVec 4) (nnn : Addr) : Word := family ++ nnn

/-- A word `Fxkk`: the family nibble, x and a byte. -/
def packXKK (family : BitVec 4) (x : Reg) (kk : Byte) : Word := family ++ (regBits x ++ kk)

/-- A word `Fxyn`: the family nibble, x, y and the low nibble. -/
def packXYN (family : BitVec 4) (x y : Reg) (n : BitVec 4) : Word := family ++ (regBits x ++ (regBits y ++ n))

/-- The word of an instruction, written from the patterns of R93. -/
def encode : Instr → Word
  | .cls => 0x00E0#16
  | .ret => 0x00EE#16
  | .jp nnn => packNNN 0x1#4 nnn
  | .call nnn => packNNN 0x2#4 nnn
  | .seByte x kk => packXKK 0x3#4 x kk
  | .sneByte x kk => packXKK 0x4#4 x kk
  | .seReg x y => packXYN 0x5#4 x y 0x0#4
  | .ldByte x kk => packXKK 0x6#4 x kk
  | .addByte x kk => packXKK 0x7#4 x kk
  | .ldReg x y => packXYN 0x8#4 x y 0x0#4
  | .orReg x y => packXYN 0x8#4 x y 0x1#4
  | .andReg x y => packXYN 0x8#4 x y 0x2#4
  | .xorReg x y => packXYN 0x8#4 x y 0x3#4
  | .addReg x y => packXYN 0x8#4 x y 0x4#4
  | .subReg x y => packXYN 0x8#4 x y 0x5#4
  | .shr x y => packXYN 0x8#4 x y 0x6#4
  | .subnReg x y => packXYN 0x8#4 x y 0x7#4
  | .shl x y => packXYN 0x8#4 x y 0xE#4
  | .sneReg x y => packXYN 0x9#4 x y 0x0#4
  | .ldI nnn => packNNN 0xA#4 nnn
  | .jpV0 nnn => packNNN 0xB#4 nnn
  | .rnd x kk => packXKK 0xC#4 x kk
  | .drw x y n => packXYN 0xD#4 x y (BitVec.ofNat 4 n)
  | .skp x => packXKK 0xE#4 x 0x9E#8
  | .sknp x => packXKK 0xE#4 x 0xA1#8
  | .ldVxDT x => packXKK 0xF#4 x 0x07#8
  | .ldVxK x => packXKK 0xF#4 x 0x0A#8
  | .ldDTVx x => packXKK 0xF#4 x 0x15#8
  | .ldSTVx x => packXKK 0xF#4 x 0x18#8
  | .addI x => packXKK 0xF#4 x 0x1E#8
  | .ldF x => packXKK 0xF#4 x 0x29#8
  | .ldB x => packXKK 0xF#4 x 0x33#8
  | .ldMemVx x => packXKK 0xF#4 x 0x55#8
  | .ldVxMem x => packXKK 0xF#4 x 0x65#8

/-- The bytes of an instruction in memory order (R68). -/
def encodeBytes (i : Instr) : List Byte := bytesOfWord (encode i)

end Sys2Proof
end

