-- ==== Sys2Proof/Machine/Flags.lean ====
section
/-! DEFINITION. The values written to VF as a flag (spec 10_state.md R23). Each is computed from the operands as read
before any write, in exact integers before truncation (42_alu.md R190). -/

namespace Sys2Proof.Machine

/-- A flag as the byte VF receives: 1 or 0 (R23). -/
def flagByte (b : Bool) : Byte := if b then 1#8 else 0#8

/-- Carry of 8xy4: the exact sum exceeds 255 (R197). -/
def carryOut (a b : Byte) : Bool := decide (a.toNat + b.toNat > 255)

/-- Not-borrow of a subtraction `a - b`: minuend ≥ subtrahend (R198, R200). -/
def notBorrow (a b : Byte) : Bool := decide (a.toNat ≥ b.toNat)

/-- The bit shifted out to the right: bit 0 (R199). -/
def shiftedOutLow (a : Byte) : Bool := a.getLsbD 0

/-- The bit shifted out to the left: bit 7 (R201). -/
def shiftedOutHigh (a : Byte) : Bool := a.getLsbD 7

end Sys2Proof.Machine
end

