-- ==== Sys2Proof/Machine/Font.lean ====
section
/-! DEFINITION. The built-in font and the reset content of memory (spec 20_memory.md R62, R63, R65). UNVERIFIED: the
base address is the spec's decision D15, the glyph bytes its general knowledge (G3), the zeros its decision D16. Log 5. -/

namespace Sys2Proof.Machine

/-- `FONT_BASE` (00_scope.md R7, D15). -/
def fontBase : Nat := 0x000

/-- Glyphs 0 to 7 (R63). -/
def fontGlyphs0to7 : List Byte :=
  [ 0xF0, 0x90, 0x90, 0x90, 0xF0,
    0x20, 0x60, 0x20, 0x20, 0x70,
    0xF0, 0x10, 0xF0, 0x80, 0xF0,
    0xF0, 0x10, 0xF0, 0x10, 0xF0,
    0x90, 0x90, 0xF0, 0x10, 0x10,
    0xF0, 0x80, 0xF0, 0x10, 0xF0,
    0xF0, 0x80, 0xF0, 0x90, 0xF0,
    0xF0, 0x10, 0x20, 0x40, 0x40 ]

/-- Glyphs 8 to F (R63). -/
def fontGlyphs8toF : List Byte :=
  [ 0xF0, 0x90, 0xF0, 0x90, 0xF0,
    0xF0, 0x90, 0xF0, 0x10, 0xF0,
    0xF0, 0x90, 0xF0, 0x90, 0x90,
    0xE0, 0x90, 0xE0, 0x90, 0xE0,
    0xF0, 0x80, 0x80, 0x80, 0xF0,
    0xE0, 0x90, 0x90, 0x90, 0xE0,
    0xF0, 0x80, 0xF0, 0x80, 0xF0,
    0xF0, 0x80, 0xF0, 0x80, 0x80 ]

/-- `FONT_IMAGE`: 16 glyphs of 5 bytes, glyph d at offset 5·d (R63). -/
def fontImage : List Byte := fontGlyphs0to7 ++ fontGlyphs8toF

/-- What an address reads as before anything is stored there: the font byte in FONT_BASE .. FONT_BASE + 79, else 0x00
(R65). This is also what an address that `Memory` does not list reads as. -/
def initialByte (a : Nat) : Byte :=
  if a < fontBase then 0#8 else fontImage.getD (a - fontBase) 0#8

end Sys2Proof.Machine
end

