-- ==== Sys2Proof/Machine/State.lean ====
section
/-! DEFINITION. The state of the core (spec 10_state.md, 20_memory.md), as plain data, with the inputs that the host
gives a step (R45, R46) and the host's script (40_core_cycle.md R121), and the state after reset (R48). -/

namespace Sys2Proof.Machine

/-- Memory: (address, byte) pairs, addresses strictly rising, no pair equal to what an unlisted address reads as
(the reset content, 20_memory.md R65). `Memory.wf` in Machine/Ops.lean says so. -/
abbrev Memory := List Host.Cell

/-- The framebuffer: 64 × 32 single-bit pixels, row-major (10_state.md R37): 32 rows of 64 bits, FB[x, y] at bit x of
row y. The flat index `y * 64 + x` of R37 is `Framebuffer.bit` in Machine/Ops.lean. -/
abbrev Framebuffer := Vector (BitVec 64) 32

/-- Why the core halted (60_exceptions.md R320), with the recorded value where R320 gives one. -/
inductive HaltCause where
  /-- pc ≥ 0x0FFF at the start of a step -/
  | outOfBoundsFetch
  /-- 00EE with an empty stack -/
  | stackUnderflow
  /-- 2nnn with 16 live entries -/
  | stackOverflow
  /-- a data address of 4096 or more; `a` is the lowest bad address of the instruction -/
  | outOfBoundsAccess (a : Nat)
  /-- a key-skip on V[x] = k > 15 -/
  | badKeyIndex (k : Byte)
  deriving DecidableEq, Repr

/-- The run status: the two cycle-level states (10_state.md R39). -/
inductive Status where
  | running
  | halted (cause : HaltCause)
  deriving DecidableEq, Repr

/-- What the host does after a step: the operations it performs, in order, and then the arguments of its next
`step(keys, rnd)` (R120, R121). -/
structure HostTurn where
  ops : List HostOp
  keys : BitVec 16
  rnd : Byte
  deriving DecidableEq, Repr

/-- The whole state. The first eleven fields are the spec's; the last four are the model's own and hold what the host
gives the core (log 1, log 2, log 3). -/
structure State where
  /-- V0–VF (R20); VF is register 15 and the flag (R22) -/
  v : Vector Byte 16
  /-- the index register (R26) -/
  I : Word
  /-- the program counter (R28) -/
  pc : Word
  /-- the live call-stack entries, newest first (R32); SP is their number (`State.sp`) -/
  stack : List Word
  /-- the delay timer (R35) -/
  DT : Byte
  /-- the sound timer (R36) -/
  ST : Byte
  /-- the framebuffer (R37) -/
  fb : Framebuffer
  /-- the redraw flag, register REDRAW (R38, R41) -/
  needsRedraw : Bool
  /-- UNKNOWN_COUNT, unbounded (R43) -/
  unknownCount : Nat
  /-- the run status (R39); its 3-bit code is `State.statusCode` -/
  status : Status
  /-- the 4096 bytes of memory (20_memory.md R60) -/
  mem : Memory
  /-- the keypad levels of the coming step: bit k set iff key k is down (R45) -/
  keys : BitVec 16
  /-- the random byte of the coming step (R46) -/
  rnd : Byte
  /-- the host's turns after the coming steps, soonest first; after them the turns are free (R121) -/
  script : List HostTurn
  /-- how many free values have been drawn: the argument of Config.freeKeys, Config.freeRnd and Config.freeOps -/
  draws : Nat
  deriving DecidableEq, Repr

/-- Why a step stops the model with a fault: never. The spec gives every condition of the core a next state (a halt is
the status Halted, 60_exceptions.md R323; an unknown opcode is counted, R328), so this type has no constructor. Log 7. -/
inductive Fault
  deriving DecidableEq, Repr

/-- Why the model gives an instruction no meaning. -/
inductive Refusal where
  /-- Raised only by an arm of `exec` for an instruction without a meaning; no arm is one. Safe: the model stops. -/
  | notModelled (mnemonic : String)
  deriving DecidableEq, Repr

/-- The state right after `init` with an empty program: R48's values, the font and zeros in memory (20_memory.md R65).
pc is the source's; the other values are the spec's decision D16 (log 4). The first step's keys and rnd are free, the
first values drawn (R45, R46; log 1); an empty script leaves every turn of the host free (log 2); draws is the model's
own, DESIGN CHOICE (log 3). -/
def State.reset : State where
  v := Vector.replicate 16 0#8
  I := 0#16
  pc := 0x200#16
  stack := []
  DT := 0#8
  ST := 0#8
  fb := Vector.replicate 32 0#64
  needsRedraw := false
  unknownCount := 0
  status := .running
  mem := []
  keys := Config.freeKeys 0
  rnd := Config.freeRnd 0
  script := []
  draws := 1

end Sys2Proof.Machine
end

