-- ==== Sys2Proof/Machine/Ops.lean ====
section
/-! DEFINITION. The named operations over memory, registers, the call stack, the screen and the status, which every
meaning goes through (spec 00_scope.md R10), and the one operation that enters a halt (60_exceptions.md R323). There is
no return from a halt (R325): only `init` (Machine/Init.lean) starts the core again. -/

namespace Sys2Proof.Machine

/-! ## Memory (20_memory.md R66, R67) -/

/-- The byte at address `a`: the listed one, else the reset content (R65, R73). -/
def Memory.read : Memory → Nat → Byte
  | [], a => initialByte a
  | (b, w) :: m, a => if a = b then w else Memory.read m a

/-- List `w` at address `a`, in rising order, in place of what was listed there. -/
def Memory.put : Memory → Nat → Byte → Memory
  | [], a, w => [(a, w)]
  | (b, u) :: m, a, w =>
    if a < b then (a, w) :: (b, u) :: m
    else if a = b then (a, w) :: m
    else (b, u) :: Memory.put m a w

/-- List nothing at address `a`. -/
def Memory.drop (m : Memory) (a : Nat) : Memory := m.filter (fun c => c.1 != a)

/-- Write byte `w` at address `a`, keeping the canonical form (R67). -/
def Memory.write (m : Memory) (a : Nat) (w : Byte) : Memory :=
  if w = initialByte a then Memory.drop m a else Memory.put m a w

/-- Write bytes at consecutive addresses, ascending from `a` (R72). -/
def Memory.writeList : Memory → Nat → List Byte → Memory
  | m, _, [] => m
  | m, a, w :: ws => Memory.writeList (Memory.write m a w) (a + 1) ws

/-- The canonical form: addresses strictly rising, all inside memory (R60), none listed with its reset content. -/
abbrev Memory.wf (m : Memory) : Prop :=
  m.Pairwise (fun c d => c.1 < d.1) ∧ ∀ c ∈ m, c.1 < Config.memSize ∧ c.2 ≠ initialByte c.1

/-- Read the memory of a state. The address is checked beforehand (`State.badAddress`, R66). -/
def State.readByte (s : State) (a : Nat) : Byte := Memory.read s.mem a

/-- Write consecutive bytes of a state's memory. Every address is checked beforehand (`State.badAddress`, R67). -/
def State.storeBytes (s : State) (a : Nat) (ws : List Byte) : State := { s with mem := Memory.writeList s.mem a ws }

/-! ## Registers -/

/-- `V[r]` (10_state.md R20). -/
def State.reg (s : State) (r : Reg) : Byte := s.v[r]

/-- `V[r] <- w` (R20). -/
def State.setReg (s : State) (r : Reg) (w : Byte) : State := { s with v := s.v.set r w }

/-- Write VF as the flag (R22, R23). -/
def State.setFlag (s : State) (b : Bool) : State := s.setReg 15 (flagByte b)

/-- Write an instruction's result and then its flag: the flag is written last, so with x = F it stays (R24).
UNVERIFIED: the spec's decision D7. Log 11. -/
def State.setResultAndFlag (s : State) (x : Reg) (w : Byte) (b : Bool) : State := (s.setReg x w).setFlag b

/-- V0..Vx in ascending register order (43_index_memory.md R244). -/
def State.regsUpTo (s : State) (x : Reg) : List Byte := s.v.toList.take (x.val + 1)

/-- Load V0..Vx from the bytes at `a`, `a + 1`, …; the registers above x keep their values (R245). -/
def State.loadRegsUpTo (s : State) (x : Reg) (a : Nat) : State :=
  { s with v := Vector.ofFn fun r : Reg => if r ≤ x then s.readByte (a + r.val) else s.v[r] }

/-- `I <- w` (R27). -/
def State.setI (s : State) (w : Word) : State := { s with I := w }

/-- `pc <- target`; no target is checked (41_control_flow.md R150). -/
def State.setPc (s : State) (w : Word) : State := { s with pc := w }

/-- `DT <- w` (R35). -/
def State.setDT (s : State) (w : Byte) : State := { s with DT := w }

/-- `ST <- w` (R36). -/
def State.setST (s : State) (w : Byte) : State := { s with ST := w }

/-- The generic advance of the fetch stage: pc + 2 (40_core_cycle.md R126). DESIGN CHOICE: computed as trunc16, which
10_state.md R30 allows. Log 8. -/
def State.advancePc (s : State) : State := s.setPc (s.pc + 2#16)

/-- A skip: on match, pc advances by an additional 2 (41_control_flow.md R155). -/
def State.skipIf (s : State) (taken : Bool) : State := if taken then s.setPc (s.pc + 2#16) else s

/-! ## The call stack (10_state.md R32, R33) -/

/-- SP: the number of live entries (R32). -/
def State.sp (s : State) : Nat := s.stack.length

/-- Replace the live entries. -/
def State.setStack (s : State) (st : List Word) : State := { s with stack := st }

/-- `push(v)`: none when 16 entries are live (R33). -/
def State.push (s : State) (w : Word) : Option State :=
  if s.sp < Config.stackDepth then some (s.setStack (w :: s.stack)) else none

/-- `pop()`: the newest entry and the state without it; none when the stack is empty (R33). -/
def State.pop (s : State) : Option (Word × State) :=
  match s.stack with
  | [] => none
  | w :: rest => some (w, s.setStack rest)

/-! ## The framebuffer (10_state.md R37, 44_display.md R270) -/

/-- The row of the framebuffer that a y coordinate falls on: y mod 32 (R270). -/
def pixelRow (y : Nat) : Fin 32 := Fin.ofNat 32 y

/-- The column that an x coordinate falls on: x mod 64 (R270). -/
def pixelCol (x : Nat) : Nat := x % Config.fbWidth

/-- `FB[x mod 64, y mod 32]`. -/
def Framebuffer.pixel (fb : Framebuffer) (x y : Nat) : Bool := (fb[pixelRow y]).getLsbD (pixelCol x)

/-- The bit at a flat index k = y * 64 + x (R37). -/
def Framebuffer.bit (fb : Framebuffer) (k : Nat) : Bool := fb.pixel (k % Config.fbWidth) (k / Config.fbWidth)

/-- Flip one pixel: XOR it with 1 (R272). -/
def Framebuffer.flip (fb : Framebuffer) (x y : Nat) : Framebuffer :=
  fb.set (pixelRow y) (fb[pixelRow y] ^^^ BitVec.twoPow 64 (pixelCol x))

/-- The clear screen (R271). -/
def Framebuffer.clear : Framebuffer := Vector.replicate Config.fbHeight 0#64

/-- Replace the screen. -/
def State.setFb (s : State) (fb : Framebuffer) : State := { s with fb := fb }

/-- `needs_redraw <- 1` (R38). -/
def State.setRedraw (s : State) : State := { s with needsRedraw := true }

/-! ## Status -/

/-- `raise Halt(cause)`: `status <- Halted(cause)` and nothing else changes: no vector, no saved register, no mode
(60_exceptions.md R323, R324). A meaning that raises gives this of the state it started from, so that none of its
writes is performed and pc keeps the fetch stage's advance (40_core_cycle.md R130). -/
def State.raiseHalt (s : State) (c : HaltCause) : State := { s with status := .halted c }

/-- The unknown-opcode path: count it, and nothing else (60_exceptions.md R328; 40_core_cycle.md R128). -/
def State.countUnknown (s : State) : State := { s with unknownCount := s.unknownCount + 1 }

/-- The 3-bit STATUS code (10_state.md R40). UNVERIFIED: the spec's decision D29. Log 20. -/
def Status.code : Status → BitVec 3
  | .running => 0#3
  | .halted .outOfBoundsFetch => 1#3
  | .halted .stackUnderflow => 2#3
  | .halted .stackOverflow => 3#3
  | .halted (.outOfBoundsAccess _) => 4#3
  | .halted (.badKeyIndex _) => 5#3

/-- The register STATUS (10_state.md R41). -/
def State.statusCode (s : State) : BitVec 3 := s.status.code

/-- What a step returns to the host: `(status, UNKNOWN_COUNT)` (40_core_cycle.md R131). -/
def State.stepResult (s : State) : BitVec 3 × Nat := (s.statusCode, s.unknownCount)

end Sys2Proof.Machine
end

