-- ==== Sys2Proof/Machine/Operands.lean ====
section
/-! DEFINITION. The operand forms (spec 30_encoding.md R90, R91; 20_memory.md R71): register fields x and y and the
implicit V0 are read by `State.reg`, the immediate kk is the byte itself; here are the others: the address field, the
data addresses I + k with their bound check, the key index, the glyph address and the decimal digits. -/

namespace Sys2Proof.Machine

/-- nnn as an address: zero-extended to 16 bits, never scaled (30_encoding.md R91). -/
def addrOperand (nnn : Addr) : Word := nnn.setWidth 16

/-- A byte as an address offset: zero-extended to 16 bits (R91). -/
def byteOffset (b : Byte) : Word := b.setWidth 16

/-- The only data addressing mode: I + k, in unbounded integers, with no wrap (20_memory.md R71). -/
def State.dataAddress (s : State) (k : Nat) : Nat := s.I.toNat + k

/-- The lowest address of I .. I + count − 1 that is 4096 or more, if there is one (20_memory.md R66, R67, R71; the
header of 43_index_memory.md): max(I, 4096). UNVERIFIED: that such an access halts is the spec's decision D4. Log 9. -/
def State.badAddress (s : State) (count : Nat) : Option Nat :=
  if 0 < count ∧ Config.memSize < s.dataAddress count then some (max s.I.toNat Config.memSize) else none

/-- All or nothing: halt with OutOfBoundsAccess if one of I .. I + count − 1 is out of memory, with no write performed,
else `done` (00_scope.md R11; 20_memory.md R66, R67). -/
def State.accessOrHalt (s : State) (count : Nat) (done : State) : State :=
  match s.badAddress count with
  | some a => s.raiseHalt (.outOfBoundsAccess a)
  | none => done

/-- `is_key_down(k)` of the step's keypad levels (10_state.md R45). -/
def State.keyDown (s : State) (k : Nat) : Bool := s.keys.getLsbD k

/-- The lowest-numbered key that is down, if one is (45_timers_keypad.md R291). UNVERIFIED: the choice of the lowest is
the spec's decision D14. Log 13. -/
def State.lowestKeyDown (s : State) : Option Nat := (List.range Config.numKeys).find? s.keyDown

/-- The address of the glyph of a byte's low nibble: FONT_BASE + 5 × (b & 0xF) (43_index_memory.md R242). -/
def glyphAddress (b : Byte) : Word := trunc16 (fontBase + 5 * (b.toNat % 16))

/-- The three decimal digits of a byte, hundreds first (43_index_memory.md R243). -/
def decimalDigits (b : Byte) : List Byte :=
  [trunc8 (b.toNat / 100), trunc8 (b.toNat / 10 % 10), trunc8 (b.toNat % 10)]

end Sys2Proof.Machine
end

