-- ==== Sys2Proof/Machine/Alu.lean ====
section
/-! DEFINITION. Register loads and the ALU (spec 42_alu.md). Operands are read before any write; results are reduced
modulo 256; a flag comes from the exact values before truncation and is written last (R190). -/

namespace Sys2Proof.Machine

/-- 6xkk LD Vx, byte (R191). -/
def execLdByte (x : Reg) (kk : Byte) (s : State) : Host.Outcome State Fault Refusal :=
  .next (s.setReg x kk)

/-- 7xkk ADD Vx, byte: `trunc8(V[x] + kk)`, no flag (R192). UNVERIFIED: no carry is the spec's decision D9. Log 16. -/
def execAddByte (x : Reg) (kk : Byte) (s : State) : Host.Outcome State Fault Refusal :=
  .next (s.setReg x (trunc8 ((s.reg x).toNat + kk.toNat)))

/-- 8xy0 LD Vx, Vy (R193). -/
def execLdReg (x y : Reg) (s : State) : Host.Outcome State Fault Refusal :=
  .next (s.setReg x (s.reg y))

/-- 8xy1 OR Vx, Vy, no flag (R194). UNVERIFIED: VF is kept by the spec's decision D8. Log 16. -/
def execOrReg (x y : Reg) (s : State) : Host.Outcome State Fault Refusal :=
  .next (s.setReg x (s.reg x ||| s.reg y))

/-- 8xy2 AND Vx, Vy, no flag (R195; D8). -/
def execAndReg (x y : Reg) (s : State) : Host.Outcome State Fault Refusal :=
  .next (s.setReg x (s.reg x &&& s.reg y))

/-- 8xy3 XOR Vx, Vy, no flag (R196; D8). -/
def execXorReg (x y : Reg) (s : State) : Host.Outcome State Fault Refusal :=
  .next (s.setReg x (s.reg x ^^^ s.reg y))

/-- 8xy4 ADD Vx, Vy: VF is the carry (R197). -/
def execAddReg (x y : Reg) (s : State) : Host.Outcome State Fault Refusal :=
  .next (s.setResultAndFlag x (trunc8 ((s.reg x).toNat + (s.reg y).toNat)) (carryOut (s.reg x) (s.reg y)))

/-- 8xy5 SUB Vx, Vy: Vx − Vy, VF is not-borrow (R198). -/
def execSubReg (x y : Reg) (s : State) : Host.Outcome State Fault Refusal :=
  .next (s.setResultAndFlag x (s.reg x - s.reg y) (notBorrow (s.reg x) (s.reg y)))

/-- 8xy6 SHR Vx: VF is the old bit 0; Vy is not read (R199, 30_encoding.md R97). -/
def execShr (x _y : Reg) (s : State) : Host.Outcome State Fault Refusal :=
  .next (s.setResultAndFlag x (s.reg x >>> 1) (shiftedOutLow (s.reg x)))

/-- 8xy7 SUBN Vx, Vy: Vy − Vx, VF is not-borrow (R200). -/
def execSubnReg (x y : Reg) (s : State) : Host.Outcome State Fault Refusal :=
  .next (s.setResultAndFlag x (s.reg y - s.reg x) (notBorrow (s.reg y) (s.reg x)))

/-- 8xyE SHL Vx: VF is the old bit 7; Vy is not read (R201, 30_encoding.md R97). -/
def execShl (x _y : Reg) (s : State) : Host.Outcome State Fault Refusal :=
  .next (s.setResultAndFlag x (s.reg x <<< 1) (shiftedOutHigh (s.reg x)))

/-- Cxkk RND Vx, byte: the step's random input masked by kk (R202; 10_state.md R46, D24). -/
def execRnd (x : Reg) (kk : Byte) (s : State) : Host.Outcome State Fault Refusal :=
  .next (s.setReg x (s.rnd &&& kk))

end Sys2Proof.Machine
end

