-- ==== Sys2Proof/Machine/ControlFlow.lean ====
section
/-! DEFINITION. Return, jumps, call and skips (spec 41_control_flow.md). In every meaning `s.pc` is the value after the
fetch-stage advance, A + 2 (40_core_cycle.md R126). -/

namespace Sys2Proof.Machine

/-- 00EE RET: pop into pc; StackUnderflow when the stack is empty (R151). -/
def execRet (s : State) : Host.Outcome State Fault Refusal :=
  .next (match s.pop with
    | some (w, t) => t.setPc w
    | none => s.raiseHalt .stackUnderflow)

/-- 1nnn JP addr: `pc <- nnn` (R152). -/
def execJp (nnn : Addr) (s : State) : Host.Outcome State Fault Refusal :=
  .next (s.setPc (addrOperand nnn))

/-- 2nnn CALL addr: push the advanced pc, then `pc <- nnn`; StackOverflow with 16 live entries (R153). -/
def execCall (nnn : Addr) (s : State) : Host.Outcome State Fault Refusal :=
  .next (match s.push s.pc with
    | some t => t.setPc (addrOperand nnn)
    | none => s.raiseHalt .stackOverflow)

/-- Bnnn JP V0, addr: `pc <- nnn + V[0]` (R154). UNVERIFIED: V0, not Vx, is the spec's decision D12. Log 12. -/
def execJpV0 (nnn : Addr) (s : State) : Host.Outcome State Fault Refusal :=
  .next (s.setPc (addrOperand nnn + byteOffset (s.reg 0)))

/-- 3xkk SE Vx, byte: skip if equal (R156). -/
def execSeByte (x : Reg) (kk : Byte) (s : State) : Host.Outcome State Fault Refusal :=
  .next (s.skipIf (s.reg x == kk))

/-- 4xkk SNE Vx, byte: skip if not equal (R157). -/
def execSneByte (x : Reg) (kk : Byte) (s : State) : Host.Outcome State Fault Refusal :=
  .next (s.skipIf (s.reg x != kk))

/-- 5xy0 SE Vx, Vy: skip if equal (R158). -/
def execSeReg (x y : Reg) (s : State) : Host.Outcome State Fault Refusal :=
  .next (s.skipIf (s.reg x == s.reg y))

/-- 9xy0 SNE Vx, Vy: skip if they differ (R159). -/
def execSneReg (x y : Reg) (s : State) : Host.Outcome State Fault Refusal :=
  .next (s.skipIf (s.reg x != s.reg y))

/-- A key-skip on the key numbered `k`: BadKeyIndex when k > 15, else skip if the key's level is `down` (R160, R161).
UNVERIFIED: the halt is the spec's decision D13. Log 10. -/
def State.keySkip (s : State) (k : Byte) (down : Bool) : State :=
  if k.toNat > 0xF then s.raiseHalt (.badKeyIndex k) else s.skipIf (s.keyDown k.toNat == down)

/-- Ex9E SKP Vx: skip if the key is down (R160). -/
def execSkp (x : Reg) (s : State) : Host.Outcome State Fault Refusal :=
  .next (s.keySkip (s.reg x) true)

/-- ExA1 SKNP Vx: skip if the key is not down (R161). -/
def execSknp (x : Reg) (s : State) : Host.Outcome State Fault Refusal :=
  .next (s.keySkip (s.reg x) false)

end Sys2Proof.Machine
end

