-- ==== Sys2Proof/Machine/Display.lean ====
section
/-! DEFINITION. Clear and sprite draw (spec 44_display.md). -/

namespace Sys2Proof.Machine

/-- A draw in progress: the screen so far, and whether a set pixel has been erased (R272, R273). -/
structure Blit where
  fb : Framebuffer
  collision : Bool
  deriving DecidableEq, Repr

/-- One sprite bit at column x, row y: a set bit flips the pixel, and collides if the pixel was set (R272). -/
def Blit.plot (b : Blit) (x y : Nat) (bit : Bool) : Blit :=
  if bit then { fb := b.fb.flip x y, collision := b.collision || b.fb.pixel x y } else b

/-- Column `col` of a sprite byte: the most significant bit is drawn leftmost (R272). -/
def spriteBit (row : Byte) (col : Nat) : Bool := row.getLsbD (7 - col)

/-- One sprite row: columns 0 to 7 of `row` at (x + col, y) (R272). -/
def Blit.drawRow (b : Blit) (x y : Nat) (row : Byte) : Blit :=
  (List.range 8).foldl (fun b col => b.plot (x + col) y (spriteBit row col)) b

/-- `n` sprite rows: the bytes at a, a + 1, … of memory at rows y, y + 1, … (R272). -/
def Blit.drawRows (m : Memory) (x : Nat) : Nat → Nat → Nat → Blit → Blit
  | 0, _, _, b => b
  | n + 1, y, a, b => Blit.drawRows m x n (y + 1) (a + 1) (b.drawRow x y (Memory.read m a))

/-- The whole blit of Dxyn: the sprite of n bytes at I, drawn at (V[x], V[y]), both read before VF is written (R272,
10_state.md R24). -/
def State.blit (s : State) (x y : Reg) (n : Nat) : Blit :=
  Blit.drawRows s.mem (s.reg x).toNat n (s.reg y).toNat (s.dataAddress 0) { fb := s.fb, collision := false }

/-- The writes of Dxyn once its addresses are checked: screen, VF, and needs_redraw if n > 0 (R272, R273, R274).
UNVERIFIED: with n = 0, VF <- 0 and needs_redraw kept are the spec's decision D20. Log 22. -/
def State.drawn (s : State) (b : Blit) (n : Nat) : State :=
  let t := (s.setFb b.fb).setFlag b.collision
  if n = 0 then t else t.setRedraw

/-- 00E0 CLS: every pixel 0 and needs_redraw set (R271). UNVERIFIED: the flag is the spec's decision D19. Log 22. -/
def execCls (s : State) : Host.Outcome State Fault Refusal :=
  .next (s.setFb Framebuffer.clear).setRedraw

/-- Dxyn DRW Vx, Vy, nibble (R272). -/
def execDrw (x y : Reg) (n : Nat) (s : State) : Host.Outcome State Fault Refusal :=
  .next (s.accessOrHalt n (s.drawn (s.blit x y n) n))

end Sys2Proof.Machine
end

