-- ==== Sys2Proof/Machine/IndexMemory.lean ====
section
/-! DEFINITION. The index register and the memory instructions (spec 43_index_memory.md). An access checks every
address before its first write; I is never changed by an access (20_memory.md R71; D10, log 17). -/

namespace Sys2Proof.Machine

/-- Annn LD I, addr (R240). -/
def execLdI (nnn : Addr) (s : State) : Host.Outcome State Fault Refusal :=
  .next (s.setI (addrOperand nnn))

/-- Fx1E ADD I, Vx: `trunc16(I + V[x])`, no flag (R241). UNVERIFIED: the spec's decisions D3 and D11. Log 18. -/
def execAddI (x : Reg) (s : State) : Host.Outcome State Fault Refusal :=
  .next (s.setI (trunc16 (s.I.toNat + (s.reg x).toNat)))

/-- Fx29 LD F, Vx: the glyph of Vx's low nibble (R242). -/
def execLdF (x : Reg) (s : State) : Host.Outcome State Fault Refusal :=
  .next (s.setI (glyphAddress (s.reg x)))

/-- Fx33 LD B, Vx: the decimal digits at I, I + 1, I + 2 (R243). -/
def execLdB (x : Reg) (s : State) : Host.Outcome State Fault Refusal :=
  .next (s.accessOrHalt 3 (s.storeBytes (s.dataAddress 0) (decimalDigits (s.reg x))))

/-- Fx55 LD [I], Vx: store V0..Vx from I upward (R244). -/
def execLdMemVx (x : Reg) (s : State) : Host.Outcome State Fault Refusal :=
  .next (s.accessOrHalt (x.val + 1) (s.storeBytes (s.dataAddress 0) (s.regsUpTo x)))

/-- Fx65 LD Vx, [I]: load V0..Vx from I upward (R245). -/
def execLdVxMem (x : Reg) (s : State) : Host.Outcome State Fault Refusal :=
  .next (s.accessOrHalt (x.val + 1) (s.loadRegsUpTo x (s.dataAddress 0)))

end Sys2Proof.Machine
end

