-- ==== Sys2Proof/Machine/TimersKeypad.lean ====
section
/-! DEFINITION. The timer and keypad instructions (spec 45_timers_keypad.md). -/

namespace Sys2Proof.Machine

/-- Fx07 LD Vx, DT (R290). -/
def execLdVxDT (x : Reg) (s : State) : Host.Outcome State Fault Refusal :=
  .next (s.setReg x s.DT)

/-- Fx0A LD Vx, K: the lowest key down into Vx; with no key down only pc changes, back to the instruction's own
address A = pc − 2 (R291, 70_reset_and_hazards.md R367). -/
def execLdVxK (x : Reg) (s : State) : Host.Outcome State Fault Refusal :=
  .next (match s.lowestKeyDown with
    | some k => s.setReg x (trunc8 k)
    | none => s.setPc (s.pc - 2#16))

/-- Fx15 LD DT, Vx (R292). -/
def execLdDTVx (x : Reg) (s : State) : Host.Outcome State Fault Refusal :=
  .next (s.setDT (s.reg x))

/-- Fx18 LD ST, Vx (R293). -/
def execLdSTVx (x : Reg) (s : State) : Host.Outcome State Fault Refusal :=
  .next (s.setST (s.reg x))

end Sys2Proof.Machine
end

