-- ==== Sys2Proof/Machine/Cycle.lean ====
section
/-! DEFINITION. One `step(keys, rnd)` of the spec: the fetch-decode-execute cycle (spec 40_core_cycle.md R122 to R131),
on a state that holds keys and rnd. -/

namespace Sys2Proof.Machine

/-- The word at pc, big-endian; none when pc ≥ 0x0FFF, where one of its bytes does not exist (R124, R125; 20_memory.md
R68). UNVERIFIED: pc = 0x0FFF itself is the spec's decision D5. Log 8. -/
def State.fetch (s : State) : Option Word :=
  if s.pc.toNat + Config.insnBytes ≤ Config.memSize then
    some (wordOfBytes (s.readByte s.pc.toNat) (s.readByte (s.pc.toNat + 1)))
  else none

/-- Decode and execute a fetched word: pc advances first; an unknown word is counted and nothing else; an instruction
is executed on the advanced state (R126 to R130). -/
def State.runWord (s : State) (op : Word) : Host.Outcome State Fault Refusal :=
  match decodeWord op with
  | .error _ => .next s.advancePc.countUnknown
  | .ok i => exec i s.advancePc

/-- `step(keys, rnd)`: nothing in Halted; OutOfBoundsFetch with pc kept when the word cannot be fetched; else the word
runs (R122, R123, R124; 60_exceptions.md R322). -/
def cycle (s : State) : Host.Outcome State Fault Refusal :=
  match s.status with
  | .halted _ => .next s
  | .running =>
    match s.fetch with
    | none => .next (s.raiseHalt .outOfBoundsFetch)
    | some op => s.runWord op

/-- Place a word in memory where the fetch reads it, and let the fetch happen: status Running, pc kept if both bytes
exist there and 0x200 otherwise. For `State.withFetchWord`. -/
def State.placeWord (s : State) (op : Word) : State :=
  let t : State := { s with status := .running, pc := if s.pc.toNat + Config.insnBytes ≤ Config.memSize then s.pc else 0x200#16 }
  t.storeBytes t.pc.toNat (bytesOfWord op)

end Sys2Proof.Machine
end

