-- ==== Sys2Proof/Machine/HostPort.lean ====
section
/-! DEFINITION. The host's side of the block interface (spec 40_core_cycle.md R120): what each operation between two
steps changes and answers, and the host's turn after a step (R121). -/

namespace Sys2Proof.Machine

/-- One tick of a countdown timer: less 1 if it is not 0 (R133). -/
def countDown (w : Byte) : Byte := if w = 0#8 then 0#8 else w - 1#8

/-- `tick_timers()`: both timers, in every status (R133; in Halted by the spec's decision D21, log 23). -/
def State.tickTimers (s : State) : State := { s with DT := countDown s.DT, ST := countDown s.ST }

/-- What `consume_redraw_flag()` leaves: the flag cleared (R134). -/
def State.consumeRedraw (s : State) : State := { s with needsRedraw := false }

/-- `sound_active()`: ST ≠ 0 (R136; the spec's decision D32, log 24). -/
def State.soundActive (s : State) : Bool := s.ST != 0#8

/-- What a host operation answers. -/
inductive HostAnswer where
  | nothing
  | redraw (b : Bool)
  | framebuffer (fb : Framebuffer)
  | status (code : BitVec 3)
  | unknownCount (n : Nat)
  | timers (DT ST : Byte)
  | soundActive (b : Bool)
  deriving DecidableEq, Repr

/-- The state a host operation leaves (R120). The read operations leave it as it was (R135, R136). -/
def hostEffect (op : HostOp) (s : State) : State :=
  match op with
  | .tickTimers => s.tickTimers
  | .consumeRedraw => s.consumeRedraw
  | .framebuffer => s
  | .status => s
  | .unknownCount => s
  | .timers => s
  | .soundActive => s

/-- What a host operation answers, of the state it starts from (R120, R134, R135, R136). -/
def hostAnswer (op : HostOp) (s : State) : HostAnswer :=
  match op with
  | .tickTimers => .nothing
  | .consumeRedraw => .redraw s.needsRedraw
  | .framebuffer => .framebuffer s.fb
  | .status => .status s.statusCode
  | .unknownCount => .unknownCount s.unknownCount
  | .timers => .timers s.DT s.ST
  | .soundActive => .soundActive s.soundActive

/-- Host operations one after another (R121: they do not overlap). -/
def hostEffects : List HostOp → State → State
  | [], s => s
  | op :: ops, s => hostEffects ops (hostEffect op s)

/-- The inputs of the next step (R45, R46). -/
def State.setInputs (s : State) (keys : BitVec 16) (rnd : Byte) : State := { s with keys := keys, rnd := rnd }

/-- The script's remaining turns. -/
def State.setScript (s : State) (turns : List HostTurn) : State := { s with script := turns }

/-- The next inputs where the script does not give them: free values, renewed at every draw (log 1). -/
def State.drawInputs (s : State) : State :=
  { s with keys := Config.freeKeys s.draws, rnd := Config.freeRnd s.draws, draws := s.draws + 1 }

/-- Host operations on a state, with what they cannot change left in view: they change the timers and the redraw flag
alone, so this is `hostEffects ops s` (`State.afterHost_eq` in Laws/Ops.lean). -/
def State.afterHost (s : State) (ops : List HostOp) : State :=
  { s with
    DT := (hostEffects ops s).DT
    ST := (hostEffects ops s).ST
    needsRedraw := (hostEffects ops s).needsRedraw }

/-- The host's turn after a step: its operations, then the inputs of the next step. The script's first turn gives both;
with the script at its end both are free (R121, 70_reset_and_hazards.md R368; log 1, log 2). -/
def hostTurn (s : State) : State :=
  match s.script with
  | [] => (s.afterHost (Config.freeOps s.draws)).drawInputs
  | turn :: rest => ((s.afterHost turn.ops).setScript rest).setInputs turn.keys turn.rnd

end Sys2Proof.Machine
end

