-- ==== Sys2Proof/Machine/Init.lean ====
section
/-! DEFINITION. `init(program)`: the core's only reset, with the load (spec 70_reset_and_hazards.md R360 to R363). -/

namespace Sys2Proof.Machine

/-- Why `init` gives no core (R362). -/
inductive LoadError where
  /-- the program is longer than 0xE00 bytes (R361) -/
  | tooLarge
  deriving DecidableEq, Repr

/-- `init(program)`: every register and flag at its reset value, the font, then the program at 0x200; a program of more
than 0xE00 bytes gives no core (R360, R361, R362). -/
def init (program : List Byte) : Except LoadError State :=
  if program.length > Config.progMax then .error .tooLarge
  else .ok (State.reset.storeBytes Config.progBase program)

end Sys2Proof.Machine
end

