-- ==== Sys2Proof/Machine/Step.lean ====
section
/-! DEFINITION. The machine's step: one cycle of the core (spec 40_core_cycle.md R122), then the host's turn (R121). -/

namespace Sys2Proof.Machine

/-- One step: `step(keys, rnd)` with the state's own inputs, then what the host does before the next one. -/
def step (s : State) : Host.Outcome State Fault Refusal :=
  match cycle s with
  | .next t => .next (hostTurn t)
  | .fault r => .fault r
  | .refused r => .refused r

/-- `s` with the opcode-table word `w` of `nbits` bits where the next step fetches (log 21). -/
def State.withFetchWord (s : State) (nbits w : Nat) : State := s.placeWord (trunc16 (w % 2 ^ nbits))

end Sys2Proof.Machine
end

