-- ==== Sys2Proof/Safety.lean ====
section
/-! DEFINITION. The terms that the statements use: the parts of the state and what "kept" means for each, which
instruction may change which part (spec 10_state.md R21, R27, R29, R34 to R38; 20_memory.md R72), the invariant of the
machine (10_state.md R30, R32, R47) and a safe run (40_core_cycle.md R123, 70_reset_and_hazards.md R365). -/

namespace Sys2Proof.Machine

/-! ## What a transition keeps -/

/-- The parts of the state other than the V registers and the host's inputs. -/
inductive Part where
  | index
  | pc
  | stack
  | delay
  | sound
  | pixels
  | redraw
  | count
  | status
  | memory
  deriving DecidableEq, Repr

/-- Every V register outside `regs` holds the same byte. -/
def KeepsRegs (regs : List Reg) (s t : State) : Prop := ∀ r : Reg, r ∉ regs → t.reg r = s.reg r

/-- Every byte of memory reads as before. -/
def KeepsMemory (s t : State) : Prop := ∀ a : Nat, t.readByte a = s.readByte a

/-- Every byte of memory outside the `count` bytes from `a` reads as before. -/
def KeepsMemoryOutside (a count : Nat) (s t : State) : Prop :=
  ∀ b : Nat, b < a ∨ a + count ≤ b → t.readByte b = s.readByte b

/-- The inputs of the coming step and what the host will do are the same: no instruction changes them. -/
def KeepsHost (s t : State) : Prop :=
  t.keys = s.keys ∧ t.rnd = s.rnd ∧ t.script = s.script ∧ t.draws = s.draws

/-- The frame of a transition from `s` to `t` that may change the parts `parts` and the registers `regs`: everything
else is kept. -/
structure Frame (parts : List Part) (regs : List Reg) (s t : State) : Prop where
  regs : KeepsRegs regs s t
  index : .index ∉ parts → t.I = s.I
  pc : .pc ∉ parts → t.pc = s.pc
  stack : .stack ∉ parts → t.stack = s.stack
  delay : .delay ∉ parts → t.DT = s.DT
  sound : .sound ∉ parts → t.ST = s.ST
  pixels : .pixels ∉ parts → t.fb = s.fb
  redraw : .redraw ∉ parts → t.needsRedraw = s.needsRedraw
  count : .count ∉ parts → t.unknownCount = s.unknownCount
  status : .status ∉ parts → t.status = s.status
  memory : .memory ∉ parts → KeepsMemory s t
  host : KeepsHost s t

/-- A halt is precise: nothing but the status changes (60_exceptions.md R323, R324). -/
def HaltsWith (c : HaltCause) (s t : State) : Prop := t.status = .halted c ∧ Frame [.status] [] s t

/-! ## What an instruction may change and read: the spec's tables -/

/-- The V registers an instruction may write: the tables of 10_state.md R21 and R23. -/
def writtenRegs : Instr → List Reg
  | .ldByte x _ | .addByte x _ | .rnd x _ => [x]
  | .ldReg x _ | .orReg x _ | .andReg x _ | .xorReg x _ => [x]
  | .addReg x _ | .subReg x _ | .shr x _ | .subnReg x _ | .shl x _ => [x, 15]
  | .drw _ _ _ => [15]
  | .ldVxDT x | .ldVxK x => [x]
  | .ldVxMem x => (List.finRange 16).filter (· ≤ x)
  | .cls | .ret | .jp _ | .call _ | .jpV0 _ => []
  | .seByte _ _ | .sneByte _ _ | .seReg _ _ | .sneReg _ _ | .skp _ | .sknp _ => []
  | .ldI _ | .addI _ | .ldF _ | .ldB _ | .ldMemVx _ | .ldDTVx _ | .ldSTVx _ => []

/-- The other parts an instruction may change: I by R27, pc beyond the fetch's advance by R29, the stack by R34, the
timers by R35 and R36, the screen by R37 and R38, memory by 20_memory.md R72, and status by 60_exceptions.md R321. -/
def changedParts : Instr → List Part
  | .cls => [.pixels, .redraw]
  | .ret => [.stack, .pc, .status]
  | .call _ => [.stack, .pc, .status]
  | .jp _ | .jpV0 _ => [.pc]
  | .seByte _ _ | .sneByte _ _ | .seReg _ _ | .sneReg _ _ => [.pc]
  | .skp _ | .sknp _ => [.pc, .status]
  | .ldByte _ _ | .addByte _ _ | .rnd _ _ | .ldVxDT _ => []
  | .ldReg _ _ | .orReg _ _ | .andReg _ _ | .xorReg _ _ => []
  | .addReg _ _ | .subReg _ _ | .shr _ _ | .subnReg _ _ | .shl _ _ => []
  | .ldI _ | .addI _ | .ldF _ => [.index]
  | .drw _ _ _ => [.pixels, .redraw, .status]
  | .ldVxK _ => [.pc]
  | .ldDTVx _ => [.delay]
  | .ldSTVx _ => [.sound]
  | .ldB _ | .ldMemVx _ => [.memory, .status]
  | .ldVxMem _ => [.status]

/-- How many bytes from I an instruction reads as data: the table of 20_memory.md R72. -/
def dataBytesRead : Instr → Nat
  | .drw _ _ n => n
  | .ldVxMem x => x.val + 1
  | .cls | .ret | .jp _ | .call _ | .jpV0 _ | .ldI _ => 0
  | .seByte _ _ | .sneByte _ _ | .seReg _ _ | .sneReg _ _ | .skp _ | .sknp _ => 0
  | .ldByte _ _ | .addByte _ _ | .rnd _ _ => 0
  | .ldReg _ _ | .orReg _ _ | .andReg _ _ | .xorReg _ _ => 0
  | .addReg _ _ | .subReg _ _ | .shr _ _ | .subnReg _ _ | .shl _ _ => 0
  | .ldVxDT _ | .ldVxK _ | .ldDTVx _ | .ldSTVx _ => 0
  | .addI _ | .ldF _ | .ldB _ | .ldMemVx _ => 0

/-- How many bytes from I an instruction stores: the table of 20_memory.md R72. -/
def dataBytesStored : Instr → Nat
  | .ldB _ => 3
  | .ldMemVx x => x.val + 1
  | .drw _ _ _ | .ldVxMem _ => 0
  | .cls | .ret | .jp _ | .call _ | .jpV0 _ | .ldI _ => 0
  | .seByte _ _ | .sneByte _ _ | .seReg _ _ | .sneReg _ _ | .skp _ | .sknp _ => 0
  | .ldByte _ _ | .addByte _ _ | .rnd _ _ => 0
  | .ldReg _ _ | .orReg _ _ | .andReg _ _ | .xorReg _ _ => 0
  | .addReg _ _ | .subReg _ _ | .shr _ _ | .subnReg _ _ | .shl _ _ => 0
  | .ldVxDT _ | .ldVxK _ | .ldDTVx _ | .ldSTVx _ => 0
  | .addI _ | .ldF _ => 0

/-! ## The invariant -/

/-- What a halted status says of the state it halted in (60_exceptions.md R320): the recorded cause is true of it, and
stays true, since Halted is absorbing. -/
def CauseHolds (s : State) : HaltCause → Prop
  | .outOfBoundsFetch => 0x0FFF ≤ s.pc.toNat
  | .stackUnderflow => s.stack = []
  | .stackOverflow => s.stack.length = 16
  | .outOfBoundsAccess a => 4096 ≤ a ∧ a = max s.I.toNat 4096
  | .badKeyIndex k => 15 < k.toNat

/-- The invariant of the machine: memory canonical (`Memory.wf`), at most 16 live entries (10_state.md R32, R47), every
saved pc at most 0x1000 and pc at most 0x10FE (R30), and a halt cause that holds (60_exceptions.md R320). -/
structure Inv (s : State) : Prop where
  memory : Memory.wf s.mem
  depth : s.stack.length ≤ 16
  returns : ∀ w ∈ s.stack, w.toNat ≤ 0x1000
  pc : s.pc.toNat ≤ 0x10FE
  cause : ∀ c, s.status = .halted c → CauseHolds s c

/-! ## Safe runs -/

/-- The core has not halted: the cycle-level state "ready to fetch" (40_core_cycle.md R122). -/
abbrev State.ready (s : State) : Prop := s.status = .running

/-- `k` steps from `s` never reach Halted. -/
def SafeFor (s : State) (k : Nat) : Prop :=
  ∀ j, j ≤ k → ∃ t, Host.Core.run Sys2Proof.core j s = .next t ∧ t.ready

/-! ## The sprite, as the spec describes it -/

/-- Whether a set bit of the n-byte sprite at I, drawn at (V[x], V[y]), lands on pixel (px, py) (44_display.md R270):
some row and column of it have a set bit, the most significant leftmost, and wrap to that pixel. -/
def spriteCovers (s : State) (x y : Reg) (n px py : Nat) : Prop :=
  ∃ row col : Nat, row < n ∧ col < 8 ∧ (s.readByte (s.I.toNat + row)).getLsbD (7 - col) = true ∧
    ((s.reg x).toNat + col) % 64 = px ∧ ((s.reg y).toNat + row) % 32 = py

end Sys2Proof.Machine
end

