-- ==== Sys2Proof/Certificates/Slice0/Obligations.lean ====
section
/-! DEFINITION. The statements for the provers, in the spec's order of subjects: encoding, the cycle, the host, reset and
load, whole-machine rules, the instructions by family, and the invariant. `exec` acts on the state after the fetch-stage
advance, so `s.pc` in a statement about `exec` is A + 2 (spec 40_core_cycle.md R126). A docstring names the spec's own
decision (D<n>) or general knowledge (G<n>) where a statement rests on one. -/

open Sys2Proof Sys2Proof.Machine

/-! ## Encoding (30_encoding.md) -/

/-- Decoding the bytes of a well-formed instruction gives it back, with the bytes that follow it: every operand at every
value the encoding admits (R90, R93, R98). The table's G and F rows are general knowledge (D35). -/
def Obligations.DecodeOfEncodeIsTheInstruction : Prop :=
  ∀ (i : Instr) (rest : List Byte), i.wf = true → decode (encodeBytes i ++ rest) = .ok (i, rest)

/-- A word that decodes to an instruction is that instruction's encoding, and the instruction is well-formed: no bit of
a defined word is dropped (R93; the ignored y of SHR and SHL is kept as an operand, R97). -/
def Obligations.EncodeOfDecodeIsTheWord : Prop :=
  ∀ (op : Word) (i : Instr), decodeWord op = .ok i → i.wf = true ∧ encode i = op

/-- The unknown words are exactly those of R94's table, by family; with D17 (0 family) and D18 (5 and 9 families). -/
def Obligations.UnknownWordsAreTheTabledOnes : Prop :=
  ∀ op : Word, decodeWord op = .error (.unknownOpcode op) ↔
    (op.toNat / 4096 = 0x0 ∧ op.toNat ≠ 0x00E0 ∧ op.toNat ≠ 0x00EE) ∨
    ((op.toNat / 4096 = 0x5 ∨ op.toNat / 4096 = 0x9) ∧ op.toNat % 16 ≠ 0) ∨
    (op.toNat / 4096 = 0x8 ∧ 7 < op.toNat % 16 ∧ op.toNat % 16 ≠ 0xE) ∨
    (op.toNat / 4096 = 0xE ∧ op.toNat % 256 ∉ [0x9E, 0xA1]) ∨
    (op.toNat / 4096 = 0xF ∧ op.toNat % 256 ∉ [0x07, 0x0A, 0x15, 0x18, 0x1E, 0x29, 0x33, 0x55, 0x65])

/-- The handler table has 34 rows; a word matches at most one of them, and it decodes to what that row makes of its
fields (R93, R96). -/
def Obligations.EachWordSelectsAtMostOneRow : Prop :=
  opcodeTable.length = 34 ∧
  ∀ (op : Word) (r : OpRow), r ∈ opcodeTable → op &&& r.mask = r.key →
    decodeWord op = .ok (r.build op) ∧
    ∀ q : OpRow, q ∈ opcodeTable → op &&& q.mask = q.key → q.key = r.key ∧ q.mask = r.mask

/-- Words written out from the patterns of R93 decode to the instructions they stand for. -/
def Obligations.SampleWordsDecodeAsTheTableSays : Prop :=
  decodeWord 0x00E0#16 = .ok .cls ∧ decodeWord 0x2300#16 = .ok (.call 0x300#12) ∧
  decodeWord 0x6005#16 = .ok (.ldByte 0 5#8) ∧ decodeWord 0x8124#16 = .ok (.addReg 1 2) ∧
  decodeWord 0xA2F0#16 = .ok (.ldI 0x2F0#12) ∧ decodeWord 0xD015#16 = .ok (.drw 0 1 5) ∧
  decodeWord 0xE59E#16 = .ok (.skp 5) ∧ decodeWord 0xF40A#16 = .ok (.ldVxK 4) ∧
  decodeWord 0xF265#16 = .ok (.ldVxMem 2) ∧ decodeWord 0x5001#16 = .error (.unknownOpcode 0x5001#16)

/-! ## The fetch-decode-execute cycle (40_core_cycle.md) -/

/-- When the two bytes at pc decode to a well-formed instruction, a step of a running core is `exec` of it on the state
whose pc has advanced by 2 (`State.advancePc`, which changes nothing else), followed by the host's turn (R122, R126,
R129, R121). -/
def Obligations.StepRunsTheDecodedInstruction : Prop :=
  ∀ (s : State) (i : Instr), s.status = .running → s.pc.toNat ≤ 0x0FFE → i.wf = true →
    decode [s.readByte s.pc.toNat, s.readByte (s.pc.toNat + 1)] = .ok (i, []) →
    s.advancePc.pc.toNat = s.pc.toNat + 2 ∧ { s.advancePc with pc := s.pc } = s ∧
    ∃ t : State, exec i s.advancePc = .next t ∧ cycle s = .next t ∧ step s = .next (hostTurn t)

/-- The fetch at any pc whose two bytes exist, odd or even, reads the big-endian word at pc (R125; 20_memory.md R68). -/
def Obligations.FetchReadsTheBigEndianWord : Prop :=
  ∀ s : State, s.pc.toNat ≤ 0x0FFE →
    ∃ op : Word, s.fetch = some op ∧
      op.toNat = 256 * (s.readByte s.pc.toNat).toNat + (s.readByte (s.pc.toNat + 1)).toNat

/-- An unknown word is counted, pc keeps the advance, and nothing else changes; the core stays Running (R128;
60_exceptions.md R328). -/
def Obligations.UnknownOpcodeIsCountedAndNothingElse : Prop :=
  ∀ (s : State) (op : Word), s.status = .running → s.fetch = some op → decodeWord op = .error (.unknownOpcode op) →
    ∃ t : State, cycle s = .next t ∧ t.unknownCount = s.unknownCount + 1 ∧ t.pc.toNat = s.pc.toNat + 2 ∧
      t.status = .running ∧ Frame [.pc, .count] [] s t

/-- A running core with pc ≥ 0x0FFF halts with OutOfBoundsFetch and changes nothing else, pc included (R124; that
pc = 0x0FFF halts is D5). -/
def Obligations.FetchOutOfBoundsHalts : Prop :=
  ∀ s : State, s.status = .running → 0x0FFF ≤ s.pc.toNat →
    ∃ t : State, cycle s = .next t ∧ HaltsWith .outOfBoundsFetch s t

/-- Halted is absorbing: the core's cycle changes nothing, and a machine step is the host's turn alone (R123, D21). -/
def Obligations.HaltedStepIsOnlyTheHostsTurn : Prop :=
  ∀ (s : State) (c : HaltCause), s.status = .halted c → cycle s = .next s ∧ step s = .next (hostTurn s)

/-- A run ends when status is Halted and a step then changes nothing; a program that runs off the end of memory halts
with OutOfBoundsFetch; a jump to itself, and Fx0A with no key down, leave the running state exactly as it was, so each
is a hang and not a halt (70_reset_and_hazards.md R365). -/
def Obligations.EndOfRunIsAHaltAndAHangIsNot : Prop :=
  (∀ (s : State) (c : HaltCause), s.status = .halted c → cycle s = .next s) ∧
  (∀ s : State, s.status = .running → 4096 ≤ s.pc.toNat →
    ∃ t : State, cycle s = .next t ∧ t.status = .halted .outOfBoundsFetch) ∧
  (∀ (s : State) (nnn : Addr), s.status = .running → nnn.toNat ≤ 0x0FFE → s.pc.toNat = nnn.toNat →
    s.fetch = some (encode (.jp nnn)) → cycle s = .next s) ∧
  (∀ (s : State) (x : Reg), s.status = .running → s.pc.toNat ≤ 0x0FFE → s.keys = 0#16 →
    s.fetch = some (encode (.ldVxK x)) → cycle s = .next s)

/-- A store over the next instruction is what the next fetch reads: Fx55 at I = pc puts V0 and V1 there as the high and
the low byte (20_memory.md R78, derived there). -/
def Obligations.StoredWordIsFetchedNext : Prop :=
  ∀ (x : Reg) (s : State), 1 ≤ x.val → s.pc = s.I → s.I.toNat + x.val < 4096 →
    ∃ t : State, exec (.ldMemVx x) s = .next t ∧
      ∃ op : Word, t.fetch = some op ∧ op.toNat = 256 * (s.reg 0).toNat + (s.reg 1).toNat

/-! ## The host's operations (40_core_cycle.md R120 to R136) -/

/-- After any sequence of host operations DT and ST are lower by the number of ticks in it, never below 0; the redraw
flag is set iff it was and no consume was among them; nothing else changes, whatever the status (R121, R133, R134, R135;
that ticks act in Halted is D21). -/
def Obligations.HostOperationsOnlyTickAndConsume : Prop :=
  ∀ (ops : List HostOp) (s : State),
    (hostEffects ops s).DT.toNat = s.DT.toNat - ops.count .tickTimers ∧
    (hostEffects ops s).ST.toNat = s.ST.toNat - ops.count .tickTimers ∧
    ((hostEffects ops s).needsRedraw = true ↔ s.needsRedraw = true ∧ .consumeRedraw ∉ ops) ∧
    Frame [.delay, .sound, .redraw] [] s (hostEffects ops s)

/-- The host's turn after a step performs its operations one after another (`hostEffects`) and gives the next step's
inputs: the script's first turn, or at the script's end free operations and free inputs, each the free value of this
draw, and the counter moves to the next draw; it changes nothing else (R121, 10_state.md R45, R46, 70_reset_and_hazards.md R368; the
script and the counter are the model's own DESIGN CHOICE, log 1 to log 3). -/
def Obligations.HostTurnFollowsTheScript : Prop :=
  (∀ (s : State) (turn : HostTurn) (rest : List HostTurn), s.script = turn :: rest →
    hostTurn s = { hostEffects turn.ops s with script := rest, keys := turn.keys, rnd := turn.rnd }) ∧
  (∀ s : State, s.script = [] →
    hostTurn s =
      { hostEffects (Config.freeOps s.draws) s with
        keys := Config.freeKeys s.draws, rnd := Config.freeRnd s.draws, draws := s.draws + 1 })

/-- consume_redraw_flag() answers the flag and clears it, and nothing else ever clears it: no other host operation, no
step (R134). -/
def Obligations.OnlyConsumeClearsTheRedrawFlag : Prop :=
  (∀ s : State, hostAnswer .consumeRedraw s = .redraw s.needsRedraw ∧
    (hostEffect .consumeRedraw s).needsRedraw = false ∧ Frame [.redraw] [] s (hostEffect .consumeRedraw s)) ∧
  (∀ (op : HostOp) (s : State), op ≠ .consumeRedraw → s.needsRedraw = true → (hostEffect op s).needsRedraw = true) ∧
  (∀ s t : State, cycle s = .next t → s.needsRedraw = true → t.needsRedraw = true)

/-- What the host's reads answer: the STATUS code by D29's numbers, the counter, both timers, ST ≠ 0 for sound_active
(D32), and every one of the 2048 pixels at its flat index (R131, R135, R136; 10_state.md R37, R40). -/
def Obligations.HostReadsAnswerTheState : Prop :=
  ∀ s : State,
    s.stepResult.2 = s.unknownCount ∧ hostAnswer .unknownCount s = .unknownCount s.unknownCount ∧
    hostAnswer .timers s = .timers s.DT s.ST ∧
    (hostAnswer .soundActive s = .soundActive true ↔ s.ST.toNat ≠ 0) ∧
    hostAnswer .status s = .status s.stepResult.1 ∧
    (s.status = .running → s.stepResult.1 = 0#3) ∧ (s.status = .halted .outOfBoundsFetch → s.stepResult.1 = 1#3) ∧
    (s.status = .halted .stackUnderflow → s.stepResult.1 = 2#3) ∧
    (s.status = .halted .stackOverflow → s.stepResult.1 = 3#3) ∧
    (∀ a, s.status = .halted (.outOfBoundsAccess a) → s.stepResult.1 = 4#3) ∧
    (∀ k, s.status = .halted (.badKeyIndex k) → s.stepResult.1 = 5#3) ∧
    ∃ fb : Framebuffer, hostAnswer .framebuffer s = .framebuffer fb ∧
      ∀ x y : Nat, x < 64 → y < 32 → fb.bit (y * 64 + x) = s.fb.pixel x y ∧ s.fb.pixel x y = (s.fb[y]!).getLsbD x

/-! ## Reset and load (70_reset_and_hazards.md) -/

/-- An accepted program starts at 0x200, Running (R363). -/
def Obligations.ResetEntryPointIs0x200 : Prop :=
  ∀ (program : List Byte) (s : State), init program = .ok s → s.pc = 0x200#16 ∧ s.status = .running

/-- init copies the program to 0x200 upward; a program of more than 0xE00 bytes fails, one of exactly 0xE00 bytes or none
is accepted (R361). The zeros after the program are 20_memory.md R65, the spec's decision D16 (log 4). -/
def Obligations.LoadCopiesTheProgramTo0x200 : Prop :=
  ∀ program : List Byte,
    (program.length ≤ 0xE00 → ∃ s : State, init program = .ok s ∧
      (∀ k (h : k < program.length), s.readByte (0x200 + k) = program[k]) ∧
      (∀ a : Nat, 0x200 + program.length ≤ a → a < 4096 → s.readByte a = 0#8)) ∧
    (0xE00 < program.length → init program = .error .tooLarge)

/-- After init every register, timer, counter and flag has R48's value (all but pc are D16), the font stands at 0x000
(D15, G3), and the rest of memory below 0x200 is zero (20_memory.md R63, R65). -/
def Obligations.ResetHoldsTheTabledValues : Prop :=
  ∀ (program : List Byte) (s : State), init program = .ok s →
    (∀ r : Reg, s.reg r = 0#8) ∧ s.I = 0#16 ∧ s.sp = 0 ∧ s.DT = 0#8 ∧ s.ST = 0#8 ∧
    (∀ x y : Nat, s.fb.pixel x y = false) ∧ s.needsRedraw = false ∧ s.unknownCount = 0 ∧
    (List.range 80).map s.readByte =
      [0xF0, 0x90, 0x90, 0x90, 0xF0, 0x20, 0x60, 0x20, 0x20, 0x70, 0xF0, 0x10, 0xF0, 0x80, 0xF0, 0xF0, 0x10, 0xF0, 0x10, 0xF0] ++
      [0x90, 0x90, 0xF0, 0x10, 0x10, 0xF0, 0x80, 0xF0, 0x10, 0xF0, 0xF0, 0x80, 0xF0, 0x90, 0xF0, 0xF0, 0x10, 0x20, 0x40, 0x40] ++
      [0xF0, 0x90, 0xF0, 0x90, 0xF0, 0xF0, 0x90, 0xF0, 0x10, 0xF0, 0xF0, 0x90, 0xF0, 0x90, 0x90, 0xE0, 0x90, 0xE0, 0x90, 0xE0] ++
      [0xF0, 0x80, 0x80, 0x80, 0xF0, 0xE0, 0x90, 0x90, 0x90, 0xE0, 0xF0, 0x80, 0xF0, 0x80, 0xF0, 0xF0, 0x80, 0xF0, 0x80, 0x80] ∧
    ∀ a : Nat, 80 ≤ a → a < 0x200 → s.readByte a = 0#8

/-! ## Whole-machine rules -/

/-- Every step of every state answers a next state: no fault, no refusal, since the core's own halts are states
(60_exceptions.md R320, R323, R328). -/
def Obligations.EveryStepAnswersANextState : Prop :=
  ∀ s : State, ∃ t : State, step s = .next t

/-- Fx0A with no key down changes pc alone, back by 2; and whatever the instruction, one that halts performs none of its
writes: only the status changes (70_reset_and_hazards.md R367). -/
def Obligations.NoInstructionWritesAndThenHalts : Prop :=
  (∀ (x : Reg) (s : State), s.keys = 0#16 →
    ∃ t : State, exec (.ldVxK x) s = .next t ∧ t.pc = s.pc - 2#16 ∧ Frame [.pc] [] s t) ∧
  (∀ (i : Instr) (s t : State) (c : HaltCause), s.status = .running → exec i s = .next t → t.status = .halted c →
    HaltsWith c s t ∧ t.mem = s.mem)

/-- Which instruction raises which halt, and with which recorded value; every other instruction raises nothing
(60_exceptions.md R320, R321; the causes of data accesses and key indices are D4 and D13). -/
def Obligations.EachHaltHasItsInstructions : Prop :=
  ∀ (i : Instr) (s t : State) (c : HaltCause), s.status = .running → exec i s = .next t → t.status = .halted c →
    (i = .ret ∧ c = .stackUnderflow) ∨
    ((∃ nnn, i = .call nnn) ∧ c = .stackOverflow) ∨
    (((∃ x y n, i = .drw x y n) ∨ (∃ x, i = .ldB x) ∨ (∃ x, i = .ldMemVx x) ∨ (∃ x, i = .ldVxMem x)) ∧
      c = .outOfBoundsAccess (max s.I.toNat 4096)) ∨
    (∃ x, (i = .skp x ∨ i = .sknp x) ∧ c = .badKeyIndex (s.reg x) ∧ 15 < (s.reg x).toNat)

/-- Every instruction keeps everything that the spec's tables do not let it change: the registers of 10_state.md R21 and
R23, I by R27, pc by R29, the stack by R34, timers by R35 and R36, the screen by R37 and R38, memory by 20_memory.md R72
(stored bytes only), the counter always, the status but for its halt. -/
def Obligations.EveryInstructionKeepsItsFrame : Prop :=
  ∀ (i : Instr) (s t : State), exec i s = .next t →
    Frame (changedParts i) (writtenRegs i) s t ∧ KeepsMemoryOutside s.I.toNat (dataBytesStored i) s t

/-- No instruction reads a data byte outside its row of 20_memory.md R72: on a memory that agrees on I .. I + k − 1 the
instruction does the same to everything but memory, and each byte of memory ends as it was, or as the same new byte. -/
def Obligations.InstructionsReadOnlyTheirDataBytes : Prop :=
  ∀ (i : Instr) (s t : State) (m : Memory), exec i s = .next t →
    (∀ k, k < dataBytesRead i → Memory.read m (s.I.toNat + k) = s.readByte (s.I.toNat + k)) →
    ∃ u : State, exec i { s with mem := m } = .next u ∧ { u with mem := t.mem } = t ∧
      ∀ a : Nat, u.readByte a = t.readByte a ∨ (u.readByte a = Memory.read m a ∧ t.readByte a = s.readByte a)

/-- No instruction reads UNKNOWN_COUNT, needs_redraw, ST or the status: with other values there it does the same to
everything else (40_core_cycle.md R137, derived there). -/
def Obligations.InstructionsIgnoreTheHostsObservations : Prop :=
  ∀ (i : Instr) (s t : State) (n : Nat) (b : Bool) (w : Byte) (st : Status), exec i s = .next t →
    ∃ u : State, exec i { s with unknownCount := n, needsRedraw := b, ST := w, status := st } = .next u ∧
      u.unknownCount = n ∧ u.v = t.v ∧ u.I = t.I ∧ u.pc = t.pc ∧ u.stack = t.stack ∧ u.DT = t.DT ∧ u.fb = t.fb ∧
      u.mem = t.mem ∧ (t.status ≠ s.status → u.status = t.status)

/-! ## Control flow (41_control_flow.md) -/

/-- 1nnn: pc becomes nnn; Bnnn: pc becomes nnn + V0, unreduced (R152, R154; the opcodes are general knowledge G9, G11,
the choice of V0 is D12). -/
def Obligations.JumpsSetPc : Prop :=
  ∀ (nnn : Addr) (s : State),
    (∃ t : State, exec (.jp nnn) s = .next t ∧ t.pc.toNat = nnn.toNat ∧ Frame [.pc] [] s t) ∧
    (∃ t : State, exec (.jpV0 nnn) s = .next t ∧ t.pc.toNat = nnn.toNat + (s.reg 0).toNat ∧ Frame [.pc] [] s t)

/-- 2nnn below the stack bound pushes the advanced pc and jumps (R153; the encoding is G10, the bound D2). -/
def Obligations.CallPushesTheReturnAddress : Prop :=
  ∀ (nnn : Addr) (s : State), s.sp < 16 →
    ∃ t : State, exec (.call nnn) s = .next t ∧ t.pc.toNat = nnn.toNat ∧ t.stack = s.pc :: s.stack ∧
      t.sp = s.sp + 1 ∧ Frame [.pc, .stack] [] s t

/-- 00EE with a live entry pops the newest into pc (R151; 10_state.md R33). -/
def Obligations.ReturnPopsIntoPc : Prop :=
  ∀ (s : State) (w : Word) (rest : List Word), s.stack = w :: rest →
    ∃ t : State, exec .ret s = .next t ∧ t.pc = w ∧ t.stack = rest ∧ Frame [.pc, .stack] [] s t

/-- 2nnn with 16 live entries halts with StackOverflow and 00EE with none halts with StackUnderflow, each with pc and
the stack as they were (R151, R153; D2, D22). -/
def Obligations.StackBoundsHalt : Prop :=
  (∀ (nnn : Addr) (s : State), s.sp = 16 →
    ∃ t : State, exec (.call nnn) s = .next t ∧ HaltsWith .stackOverflow s t) ∧
  (∀ s : State, s.sp = 0 → ∃ t : State, exec .ret s = .next t ∧ HaltsWith .stackUnderflow s t)

/-- A call and later a return with the same live entries: the return resumes at the address after the call and leaves
the stack as it was before it, whatever the routine did to everything else (R151, R153; D2, D37). -/
def Obligations.ReturnUndoesCall : Prop :=
  ∀ (nnn : Addr) (s t u : State), s.sp < 16 → exec (.call nnn) s = .next t → u.stack = t.stack →
    ∃ z : State, exec .ret u = .next z ∧ z.pc = s.pc ∧ z.stack = s.stack ∧ z.status = u.status

/-- 3xkk and 5xy0 skip on equal, 4xkk and 9xy0 on not-equal: pc advances by an additional 2, else it stays (R155 to R159;
the polarities are general knowledge G12). -/
def Obligations.SkipsCompareAndAdvance : Prop :=
  ∀ (x y : Reg) (kk : Byte) (s : State),
    (∃ t : State, exec (.seByte x kk) s = .next t ∧ Frame [.pc] [] s t ∧
      t.pc = s.pc + (if (s.reg x).toNat = kk.toNat then 2#16 else 0#16)) ∧
    (∃ t : State, exec (.sneByte x kk) s = .next t ∧ Frame [.pc] [] s t ∧
      t.pc = s.pc + (if (s.reg x).toNat = kk.toNat then 0#16 else 2#16)) ∧
    (∃ t : State, exec (.seReg x y) s = .next t ∧ Frame [.pc] [] s t ∧
      t.pc = s.pc + (if (s.reg x).toNat = (s.reg y).toNat then 2#16 else 0#16)) ∧
    (∃ t : State, exec (.sneReg x y) s = .next t ∧ Frame [.pc] [] s t ∧
      t.pc = s.pc + (if (s.reg x).toNat = (s.reg y).toNat then 0#16 else 2#16))

/-- Ex9E skips iff the key numbered V[x] is down, ExA1 iff it is not, for V[x] ≤ 15 (R160, R161; which of the two is
general knowledge G13). -/
def Obligations.KeySkipsTestTheKey : Prop :=
  ∀ (x : Reg) (s : State), (s.reg x).toNat ≤ 15 →
    (∃ t : State, exec (.skp x) s = .next t ∧ Frame [.pc] [] s t ∧
      t.pc = s.pc + (if s.keys.getLsbD (s.reg x).toNat = true then 2#16 else 0#16)) ∧
    (∃ t : State, exec (.sknp x) s = .next t ∧ Frame [.pc] [] s t ∧
      t.pc = s.pc + (if s.keys.getLsbD (s.reg x).toNat = true then 0#16 else 2#16))

/-- Ex9E and ExA1 with V[x] > 15 halt with BadKeyIndex(V[x]) before any effect (R160, R161; D13). -/
def Obligations.KeySkipOnABadIndexHalts : Prop :=
  ∀ (x : Reg) (s : State), 15 < (s.reg x).toNat →
    (∃ t : State, exec (.skp x) s = .next t ∧ HaltsWith (.badKeyIndex (s.reg x)) s t) ∧
    (∃ t : State, exec (.sknp x) s = .next t ∧ HaltsWith (.badKeyIndex (s.reg x)) s t)

/-! ## Register loads and the ALU (42_alu.md) -/

/-- 6xkk: the words with top nibble 6 are it, and it loads kk into Vx, VF like any other, writing no flag (R191). -/
def Obligations.LoadImmediateSetsVx : Prop :=
  (∀ op : Word, op &&& 0xF000#16 = 0x6000#16 →
    ∃ (x : Reg) (kk : Byte), decodeWord op = .ok (.ldByte x kk) ∧
      x.val = op.toNat / 256 % 16 ∧ kk.toNat = op.toNat % 256) ∧
  (∀ (x : Reg) (kk : Byte) (s : State), ∃ t : State, exec (.ldByte x kk) s = .next t ∧ t.reg x = kk ∧ Frame [] [x] s t)

/-- 7xkk: Vx becomes (Vx + kk) mod 256 and no flag is written, even on overflow (R192; D9, G14). -/
def Obligations.AddImmediateWritesNoFlag : Prop :=
  ∀ (x : Reg) (kk : Byte) (s : State), ∃ t : State, exec (.addByte x kk) s = .next t ∧
    (t.reg x).toNat = ((s.reg x).toNat + kk.toNat) % 256 ∧ Frame [] [x] s t

/-- 8xy0 copies Vy; 8xy1, 8xy2 and 8xy3 are bitwise or, and, exclusive or, with VF written only as a named destination
(R193 to R196; the low nibbles are general knowledge G5, VF kept is D8). -/
def Obligations.CopyAndLogicWriteOnlyVx : Prop :=
  ∀ (x y : Reg) (s : State),
    (∃ t : State, exec (.ldReg x y) s = .next t ∧ t.reg x = s.reg y ∧ Frame [] [x] s t) ∧
    (∃ t : State, exec (.orReg x y) s = .next t ∧ Frame [] [x] s t ∧
      ∀ k, (t.reg x).getLsbD k = ((s.reg x).getLsbD k || (s.reg y).getLsbD k)) ∧
    (∃ t : State, exec (.andReg x y) s = .next t ∧ Frame [] [x] s t ∧
      ∀ k, (t.reg x).getLsbD k = ((s.reg x).getLsbD k && (s.reg y).getLsbD k)) ∧
    (∃ t : State, exec (.xorReg x y) s = .next t ∧ Frame [] [x] s t ∧
      ∀ k, (t.reg x).getLsbD k = ((s.reg x).getLsbD k ^^ (s.reg y).getLsbD k))

/-- 8xy4: VF ends as the carry, and for x ≠ F the exact sum is Vx + 256·VF of the result; for x = F the flag is what
stays (R197, R203; flag last is D7). -/
def Obligations.AddWithCarryIsExact : Prop :=
  ∀ (x y : Reg) (s : State), ∃ t : State, exec (.addReg x y) s = .next t ∧ Frame [] [x, 15] s t ∧
    (t.reg 15).toNat = (if (s.reg x).toNat + (s.reg y).toNat > 255 then 1 else 0) ∧
    (x ≠ 15 → (t.reg x).toNat + 256 * (t.reg 15).toNat = (s.reg x).toNat + (s.reg y).toNat)

/-- 8xy5 computes Vx − Vy and 8xy7 computes Vy − Vx: VF ends as not-borrow (1 iff minuend ≥ subtrahend, equality
included), and for x ≠ F result + subtrahend = minuend + 256·(1 − VF) (R198, R200; flag last is D7, the operand order of
8xy7 is G15; R203's summary has the sign of the borrow otherwise, log 30). -/
def Obligations.SubtractionsAreExactWithNotBorrow : Prop :=
  ∀ (x y : Reg) (s : State),
    (∃ t : State, exec (.subReg x y) s = .next t ∧ Frame [] [x, 15] s t ∧
      (t.reg 15).toNat = (if (s.reg x).toNat ≥ (s.reg y).toNat then 1 else 0) ∧
      (x ≠ 15 → (t.reg x).toNat + (s.reg y).toNat = (s.reg x).toNat + 256 * (1 - (t.reg 15).toNat))) ∧
    (∃ t : State, exec (.subnReg x y) s = .next t ∧ Frame [] [x, 15] s t ∧
      (t.reg 15).toNat = (if (s.reg y).toNat ≥ (s.reg x).toNat then 1 else 0) ∧
      (x ≠ 15 → (t.reg x).toNat + (s.reg x).toNat = (s.reg y).toNat + 256 * (1 - (t.reg 15).toNat)))

/-- 8xy6 and 8xyE shift Vx by one, whatever y: VF ends as the bit shifted out, and for x ≠ F the result and that bit
make up the old Vx (R199, R201; 30_encoding.md R97; flag last is D7). -/
def Obligations.ShiftsMoveTheOutgoingBitToVF : Prop :=
  ∀ (x y : Reg) (s : State),
    (∃ t : State, exec (.shr x y) s = .next t ∧ Frame [] [x, 15] s t ∧
      (t.reg 15).toNat = (s.reg x).toNat % 2 ∧
      (x ≠ 15 → 2 * (t.reg x).toNat + (t.reg 15).toNat = (s.reg x).toNat)) ∧
    (∃ t : State, exec (.shl x y) s = .next t ∧ Frame [] [x, 15] s t ∧
      (t.reg 15).toNat = (s.reg x).toNat / 128 ∧
      (x ≠ 15 → (t.reg x).toNat + 256 * (t.reg 15).toNat = 2 * (s.reg x).toNat))

/-- Cxkk: Vx becomes the step's random byte masked by kk, for every value of that byte (R202; 10_state.md R46; D24, G1,
G2). -/
def Obligations.RandomIsTheInputMasked : Prop :=
  ∀ (x : Reg) (kk r : Byte) (s : State), s.rnd = r →
    ∃ t : State, exec (.rnd x kk) s = .next t ∧ Frame [] [x] s t ∧
      ∀ k, (t.reg x).getLsbD k = (r.getLsbD k && kk.getLsbD k)

/-! ## The index register and memory (43_index_memory.md) -/

/-- Annn sets I to nnn; Fx1E adds Vx to I modulo 65536 with no flag; Fx29 sets I to 5 times Vx's low nibble (R240, R241,
R242; G16, G17, D3, D11, and FONT_BASE = 0 by D15). -/
def Obligations.IndexInstructionsSetI : Prop :=
  ∀ (nnn : Addr) (x : Reg) (s : State),
    (∃ t : State, exec (.ldI nnn) s = .next t ∧ t.I.toNat = nnn.toNat ∧ Frame [.index] [] s t) ∧
    (∃ t : State, exec (.addI x) s = .next t ∧ t.I.toNat = (s.I.toNat + (s.reg x).toNat) % 65536 ∧
      Frame [.index] [] s t) ∧
    (∃ t : State, exec (.ldF x) s = .next t ∧ t.I.toNat = 5 * ((s.reg x).toNat % 16) ∧ Frame [.index] [] s t)

/-- Fx33 in bounds stores the three decimal digits of Vx at I, I + 1, I + 2, hundreds first, and no other byte changes,
nor I (R243; D10). -/
def Obligations.BcdStoresTheDecimalDigits : Prop :=
  ∀ (x : Reg) (s : State), s.I.toNat + 2 < 4096 →
    ∃ t : State, exec (.ldB x) s = .next t ∧
      (t.readByte s.I.toNat).toNat ≤ 9 ∧ (t.readByte (s.I.toNat + 1)).toNat ≤ 9 ∧
      (t.readByte (s.I.toNat + 2)).toNat ≤ 9 ∧
      100 * (t.readByte s.I.toNat).toNat + 10 * (t.readByte (s.I.toNat + 1)).toNat +
        (t.readByte (s.I.toNat + 2)).toNat = (s.reg x).toNat ∧
      KeepsMemoryOutside (s.dataAddress 0) 3 s t ∧ Frame [.memory] [] s t

/-- Fx55 in bounds stores V0..Vx in ascending order from I, and no other byte changes, nor I (R244; D10). -/
def Obligations.StoreRegistersWritesV0ToVx : Prop :=
  ∀ (x : Reg) (s : State), s.I.toNat + x.val < 4096 →
    ∃ t : State, exec (.ldMemVx x) s = .next t ∧
      (∀ r : Reg, r ≤ x → t.readByte (s.I.toNat + r.val) = s.reg r) ∧
      KeepsMemoryOutside (s.dataAddress 0) (x.val + 1) s t ∧ Frame [.memory] [] s t

/-- Fx65 in bounds loads V0..Vx from I in ascending order; the registers above x, all of memory and I are kept (R245;
D10). -/
def Obligations.LoadRegistersReadsV0ToVx : Prop :=
  ∀ (x : Reg) (s : State), s.I.toNat + x.val < 4096 →
    ∃ t : State, exec (.ldVxMem x) s = .next t ∧
      (∀ r : Reg, r ≤ x → t.reg r = s.readByte (s.I.toNat + r.val)) ∧
      (∀ r : Reg, x < r → t.reg r = s.reg r) ∧ Frame [] (writtenRegs (.ldVxMem x)) s t

/-- A data access one of whose bytes lies at 4096 or above halts with OutOfBoundsAccess of the lowest such address, with
nothing written: Fx33, Fx55, Fx65, and Dxyn with n > 0 (20_memory.md R66, R67, R71; 60_exceptions.md R320; D4). -/
def Obligations.DataAccessOutOfBoundsHalts : Prop :=
  (∀ (x : Reg) (s : State), 4096 ≤ s.I.toNat + 2 →
    ∃ t : State, exec (.ldB x) s = .next t ∧ HaltsWith (.outOfBoundsAccess (max s.I.toNat 4096)) s t) ∧
  (∀ (x : Reg) (s : State), 4096 ≤ s.I.toNat + x.val →
    (∃ t : State, exec (.ldMemVx x) s = .next t ∧ HaltsWith (.outOfBoundsAccess (max s.I.toNat 4096)) s t) ∧
    (∃ t : State, exec (.ldVxMem x) s = .next t ∧ HaltsWith (.outOfBoundsAccess (max s.I.toNat 4096)) s t)) ∧
  (∀ (x y : Reg) (n : Nat) (s : State), 0 < n → 4096 ≤ s.I.toNat + (n - 1) →
    ∃ t : State, exec (.drw x y n) s = .next t ∧ HaltsWith (.outOfBoundsAccess (max s.I.toNat 4096)) s t)

/-! ## Display (44_display.md) -/

/-- 00E0 clears every pixel and sets needs_redraw, always (R271; the flag is D19). -/
def Obligations.ClearScreenClearsEveryPixel : Prop :=
  ∀ s : State, ∃ t : State, exec .cls s = .next t ∧ (∀ x y : Nat, t.fb.pixel x y = false) ∧ t.needsRedraw = true ∧
    Frame [.pixels, .redraw] [] s t

/-- Dxyn in bounds flips exactly the pixels that a set bit of the sprite lands on, coordinates modulo 64 and 32 for any
X and Y in 0..255 (R270), the most significant bit leftmost; it changes nothing but pixels, VF and needs_redraw (R272).
That n = 0 completes with I outside memory is the spec's decision D20 (log 22). -/
def Obligations.DrawFlipsTheWrappedSpritePixels : Prop :=
  ∀ (x y : Reg) (n : Nat) (s : State), (Instr.drw x y n).wf = true → n = 0 ∨ s.I.toNat + n ≤ 4096 →
    ∃ t : State, exec (.drw x y n) s = .next t ∧ Frame [.pixels, .redraw] [15] s t ∧
      ∀ px py : Nat, px < 64 → py < 32 →
        (spriteCovers s x y n px py → t.fb.pixel px py = !s.fb.pixel px py) ∧
        (¬ spriteCovers s x y n px py → t.fb.pixel px py = s.fb.pixel px py)

/-- Dxyn in bounds sets VF to 1 if some pixel that was set is under a set sprite bit, and to 0 otherwise: one flag for
the whole sprite, written on every executed draw (R273, whose last clause is derived there). -/
def Obligations.DrawSetsVFOnCollision : Prop :=
  ∀ (x y : Reg) (n : Nat) (s : State), (Instr.drw x y n).wf = true → n = 0 ∨ s.I.toNat + n ≤ 4096 →
    ∃ t : State, exec (.drw x y n) s = .next t ∧
      ((∃ px py : Nat, px < 64 ∧ py < 32 ∧ spriteCovers s x y n px py ∧ s.fb.pixel px py = true) → t.reg 15 = 1#8) ∧
      ((¬ ∃ px py : Nat, px < 64 ∧ py < 32 ∧ spriteCovers s x y n px py ∧ s.fb.pixel px py = true) → t.reg 15 = 0#8)

/-- Dxyn with n ≥ 1 sets needs_redraw whenever it does not halt, whether or not a pixel changed; with its addresses in
memory it does not halt (R274). -/
def Obligations.DrawSetsTheRedrawFlag : Prop :=
  ∀ (x y : Reg) (n : Nat) (s : State), 1 ≤ n → s.status = .running →
    ∃ t : State, exec (.drw x y n) s = .next t ∧ (t.status = .running → t.needsRedraw = true) ∧
      (s.I.toNat + n ≤ 4096 → t.status = .running)

/-- Dxy0, whatever I: no pixel changes, VF becomes 0, needs_redraw and the status are kept (R272; D20). -/
def Obligations.DrawOfNoRowsOnlyClearsVF : Prop :=
  ∀ (x y : Reg) (s : State), ∃ t : State, exec (.drw x y 0) s = .next t ∧ t.reg 15 = 0#8 ∧ Frame [] [15] s t

/-- Drawing the same sprite twice at the same place restores the framebuffer, and the second draw's VF is 1 iff a set
sprite bit lands on a pixel that was clear before the first (R275, derived there). -/
def Obligations.DrawingTwiceRestoresTheScreen : Prop :=
  ∀ (x y : Reg) (n : Nat) (s t : State), (Instr.drw x y n).wf = true → x ≠ 15 → y ≠ 15 → s.I.toNat + n ≤ 4096 →
    exec (.drw x y n) s = .next t →
    ∃ u : State, exec (.drw x y n) t = .next u ∧ u.fb = s.fb ∧
      (u.reg 15 = 1#8 ↔ ∃ px py : Nat, px < 64 ∧ py < 32 ∧ spriteCovers s x y n px py ∧ s.fb.pixel px py = false)

/-! ## Timers and keypad (45_timers_keypad.md) -/

/-- Fx07 reads DT into Vx, Fx15 sets DT from Vx, Fx18 sets ST from Vx (R290, R292, R293; G18). -/
def Obligations.TimerInstructionsMoveTheTimers : Prop :=
  ∀ (x : Reg) (s : State),
    (∃ t : State, exec (.ldVxDT x) s = .next t ∧ t.reg x = s.DT ∧ Frame [] [x] s t) ∧
    (∃ t : State, exec (.ldDTVx x) s = .next t ∧ t.DT = s.reg x ∧ Frame [.delay] [] s t) ∧
    (∃ t : State, exec (.ldSTVx x) s = .next t ∧ t.ST = s.reg x ∧ Frame [.sound] [] s t)

/-- Fx0A with a key down stores the lowest-numbered one in Vx and goes on (R291; the lowest, and level sensitivity, are
D14). -/
def Obligations.KeyWaitTakesTheLowestKey : Prop :=
  ∀ (x : Reg) (s : State), s.keys ≠ 0#16 →
    ∃ (t : State) (k : Nat), exec (.ldVxK x) s = .next t ∧ k < 16 ∧ s.keys.getLsbD k = true ∧
      (∀ j, j < k → s.keys.getLsbD j = false) ∧ (t.reg x).toNat = k ∧ Frame [] [x] s t

/-! ## The invariant -/

/-- The invariant holds after init, whatever the accepted program (10_state.md R48; 20_memory.md R65), and so at the
reset state. -/
def Obligations.InitialStatesMeetTheInvariant : Prop :=
  Inv State.reset ∧ ∀ (program : List Byte) (s : State), init program = .ok s → Inv s

/-- Every step from a state that meets the invariant gives one that meets it, whatever the inputs and the host's script:
memory stays canonical, at most 16 return addresses are live, none above 0x1000, pc stays at most 0x10FE (10_state.md
R30, R32, R47), and the cause of a halt stays true. -/
def Obligations.EveryStepKeepsTheInvariant : Prop :=
  ∀ s t : State, Inv s → step s = .next t → Inv t

/-- In every run of any length, from any state that meets the invariant and with any host script, a halt's cause is true
of the state it ends in: pc out of bounds, the stack empty or full, the recorded address outside memory, or the recorded
key index above 15 (60_exceptions.md R320; 10_state.md R39). -/
def Obligations.HaltCausesAreTrueOfTheState : Prop :=
  ∀ (k : Nat) (s t : State) (c : HaltCause), Inv s → Host.Core.run Sys2Proof.core k s = .next t →
    t.status = .halted c →
    (c = .outOfBoundsFetch ∧ 0x0FFF ≤ t.pc.toNat) ∨ (c = .stackUnderflow ∧ t.sp = 0) ∨
    (c = .stackOverflow ∧ t.sp = 16) ∨ (∃ a, c = .outOfBoundsAccess a ∧ 4096 ≤ a ∧ a ≤ 65535) ∨
    (∃ key, c = .badKeyIndex key ∧ 15 < key.toNat)
end

