-- ==== Sys2Proof/Laws/Memory.lean ====
section
/-! SUPPORT. What memory's operations do: a read after a write, what a write leaves alone, and that every operation
keeps the canonical form. -/

namespace Sys2Proof.Machine

theorem Memory.read_put (m : Memory) (a b : Nat) (w : Byte) :
    Memory.read (Memory.put m a w) b = if b = a then w else Memory.read m b := by
  induction m with
  | nil => simp [Memory.put, Memory.read]
  | cons c m ih =>
    obtain ⟨c, u⟩ := c
    simp only [Memory.put]
    split
    · rfl
    · split
      · subst c
        simp only [Memory.read]
        split <;> rfl
      · simp only [Memory.read, ih]
        split
        · split
          · omega
          · rfl
        · rfl

theorem Memory.read_drop (m : Memory) (a b : Nat) :
    Memory.read (Memory.drop m a) b = if b = a then initialByte a else Memory.read m b := by
  induction m with
  | nil =>
    simp only [Memory.drop, List.filter_nil, Memory.read]
    split
    · subst b; rfl
    · rfl
  | cons c m ih =>
    obtain ⟨c, u⟩ := c
    simp only [Memory.drop] at ih
    simp only [Memory.drop, List.filter_cons]
    by_cases h : c = a
    · subst c
      simp only [bne_self_eq_false, Bool.false_eq_true, if_false, ih, Memory.read]
      split <;> rfl
    · simp only [bne_iff_ne, ne_eq, h, not_false_eq_true, if_true, Memory.read, ih]
      split
      · split
        · omega
        · rfl
      · rfl

/-- A read after a write: the written byte at that address, the old one elsewhere. -/
theorem Memory.read_write (m : Memory) (a b : Nat) (w : Byte) :
    Memory.read (Memory.write m a w) b = if b = a then w else Memory.read m b := by
  unfold Memory.write
  split
  · rename_i h
    rw [Memory.read_drop, h]
  · exact Memory.read_put m a b w

/-- A read after consecutive writes: inside them the byte written there, outside them the old one. -/
theorem Memory.read_writeList (m : Memory) (a b : Nat) (ws : List Byte) :
    Memory.read (Memory.writeList m a ws) b =
      if a ≤ b ∧ b < a + ws.length then ws.getD (b - a) 0#8 else Memory.read m b := by
  induction ws generalizing m a with
  | nil => simp [Memory.writeList]
  | cons w ws ih =>
    simp only [Memory.writeList, ih, Memory.read_write, List.length_cons]
    by_cases h : b = a
    · subst b
      simp
    · by_cases h1 : a + 1 ≤ b ∧ b < a + 1 + ws.length
      · have : b - a = (b - (a + 1)) + 1 := by omega
        rw [if_pos h1, if_pos (by omega), this, List.getD_cons_succ]
      · rw [if_neg h1, if_neg h, if_neg (by omega)]

theorem Memory.mem_put {m : Memory} {a : Nat} {w : Byte} {c : Host.Cell} (h : c ∈ Memory.put m a w) :
    c = (a, w) ∨ c ∈ m := by
  induction m with
  | nil => simpa [Memory.put] using h
  | cons d m ih =>
    obtain ⟨d, u⟩ := d
    simp only [Memory.put] at h
    split at h
    · simpa using h
    · split at h
      · rcases List.mem_cons.1 h with h | h
        · exact .inl h
        · exact .inr (List.mem_cons_of_mem _ h)
      · rcases List.mem_cons.1 h with h | h
        · exact .inr (h ▸ List.mem_cons_self)
        · exact (ih h).imp id (List.mem_cons_of_mem _)

theorem Memory.put_rising {m : Memory} (a : Nat) (w : Byte) (h : m.Pairwise (fun c d => c.1 < d.1)) :
    (Memory.put m a w).Pairwise (fun c d => c.1 < d.1) := by
  induction m with
  | nil => simp [Memory.put]
  | cons d m ih =>
    obtain ⟨d, u⟩ := d
    obtain ⟨hd, hm⟩ := List.pairwise_cons.1 h
    simp only [Memory.put]
    split
    · refine List.pairwise_cons.2 ⟨fun c hc => ?_, h⟩
      rcases List.mem_cons.1 hc with rfl | hc
      · assumption
      · exact Nat.lt_trans ‹a < d› (hd c hc)
    · split
      · subst d
        exact List.pairwise_cons.2 ⟨hd, hm⟩
      · refine List.pairwise_cons.2 ⟨fun c hc => ?_, ih hm⟩
        rcases Memory.mem_put hc with rfl | hc
        · show d < a
          omega
        · exact hd c hc

/-- A write inside memory keeps the canonical form. -/
theorem Memory.write_wf {m : Memory} {a : Nat} (w : Byte) (h : Memory.wf m) (ha : a < Config.memSize) :
    Memory.wf (Memory.write m a w) := by
  unfold Memory.write
  split
  · exact ⟨h.1.filter _, fun c hc => h.2 c (List.mem_filter.1 hc).1⟩
  · refine ⟨Memory.put_rising a w h.1, fun c hc => ?_⟩
    rcases Memory.mem_put hc with rfl | hc
    · exact ⟨ha, ‹_›⟩
    · exact h.2 c hc

/-- Consecutive writes inside memory keep the canonical form. -/
theorem Memory.writeList_wf {m : Memory} {a : Nat} (ws : List Byte) (h : Memory.wf m)
    (ha : a + ws.length ≤ Config.memSize) : Memory.wf (Memory.writeList m a ws) := by
  induction ws generalizing m a with
  | nil => exact h
  | cons w ws ih =>
    simp only [List.length_cons] at ha
    exact ih (Memory.write_wf w h (by omega)) (by omega)

/-- The reset memory lists nothing, so it is canonical. -/
theorem Memory.wf_reset : Memory.wf State.reset.mem := by decide

/-- A state's read after a store. -/
theorem State.readByte_storeBytes (s : State) (a b : Nat) (ws : List Byte) :
    (s.storeBytes a ws).readByte b =
      if a ≤ b ∧ b < a + ws.length then ws.getD (b - a) 0#8 else s.readByte b :=
  Memory.read_writeList s.mem a b ws

end Sys2Proof.Machine
end

