-- ==== Sys2Proof/Laws/State.lean ====
section
/-! SUPPORT. One lemma per field per update of State, true by rfl, so that no later proof unfolds a record update; and,
for every update that leaves them alone, the reads of a register and of a byte of memory. -/

namespace Sys2Proof.Machine

variable (s : State)

/-! ## setReg -/

@[simp] theorem State.setReg_v (r : Reg) (w : Byte) : (s.setReg r w).v = s.v.set r w := rfl
@[simp] theorem State.setReg_I (r : Reg) (w : Byte) : (s.setReg r w).I = s.I := rfl
@[simp] theorem State.setReg_pc (r : Reg) (w : Byte) : (s.setReg r w).pc = s.pc := rfl
@[simp] theorem State.setReg_stack (r : Reg) (w : Byte) : (s.setReg r w).stack = s.stack := rfl
@[simp] theorem State.setReg_DT (r : Reg) (w : Byte) : (s.setReg r w).DT = s.DT := rfl
@[simp] theorem State.setReg_ST (r : Reg) (w : Byte) : (s.setReg r w).ST = s.ST := rfl
@[simp] theorem State.setReg_fb (r : Reg) (w : Byte) : (s.setReg r w).fb = s.fb := rfl
@[simp] theorem State.setReg_needsRedraw (r : Reg) (w : Byte) : (s.setReg r w).needsRedraw = s.needsRedraw := rfl
@[simp] theorem State.setReg_unknownCount (r : Reg) (w : Byte) : (s.setReg r w).unknownCount = s.unknownCount := rfl
@[simp] theorem State.setReg_status (r : Reg) (w : Byte) : (s.setReg r w).status = s.status := rfl
@[simp] theorem State.setReg_mem (r : Reg) (w : Byte) : (s.setReg r w).mem = s.mem := rfl
@[simp] theorem State.setReg_keys (r : Reg) (w : Byte) : (s.setReg r w).keys = s.keys := rfl
@[simp] theorem State.setReg_rnd (r : Reg) (w : Byte) : (s.setReg r w).rnd = s.rnd := rfl
@[simp] theorem State.setReg_script (r : Reg) (w : Byte) : (s.setReg r w).script = s.script := rfl
@[simp] theorem State.setReg_draws (r : Reg) (w : Byte) : (s.setReg r w).draws = s.draws := rfl
@[simp] theorem State.setReg_readByte (r : Reg) (w : Byte) (q : Nat) : (s.setReg r w).readByte q = s.readByte q := rfl

/-! ## setFlag -/

@[simp] theorem State.setFlag_v (b : Bool) : (s.setFlag b).v = s.v.set (15 : Reg) (flagByte b) := rfl
@[simp] theorem State.setFlag_I (b : Bool) : (s.setFlag b).I = s.I := rfl
@[simp] theorem State.setFlag_pc (b : Bool) : (s.setFlag b).pc = s.pc := rfl
@[simp] theorem State.setFlag_stack (b : Bool) : (s.setFlag b).stack = s.stack := rfl
@[simp] theorem State.setFlag_DT (b : Bool) : (s.setFlag b).DT = s.DT := rfl
@[simp] theorem State.setFlag_ST (b : Bool) : (s.setFlag b).ST = s.ST := rfl
@[simp] theorem State.setFlag_fb (b : Bool) : (s.setFlag b).fb = s.fb := rfl
@[simp] theorem State.setFlag_needsRedraw (b : Bool) : (s.setFlag b).needsRedraw = s.needsRedraw := rfl
@[simp] theorem State.setFlag_unknownCount (b : Bool) : (s.setFlag b).unknownCount = s.unknownCount := rfl
@[simp] theorem State.setFlag_status (b : Bool) : (s.setFlag b).status = s.status := rfl
@[simp] theorem State.setFlag_mem (b : Bool) : (s.setFlag b).mem = s.mem := rfl
@[simp] theorem State.setFlag_keys (b : Bool) : (s.setFlag b).keys = s.keys := rfl
@[simp] theorem State.setFlag_rnd (b : Bool) : (s.setFlag b).rnd = s.rnd := rfl
@[simp] theorem State.setFlag_script (b : Bool) : (s.setFlag b).script = s.script := rfl
@[simp] theorem State.setFlag_draws (b : Bool) : (s.setFlag b).draws = s.draws := rfl
@[simp] theorem State.setFlag_readByte (b : Bool) (q : Nat) : (s.setFlag b).readByte q = s.readByte q := rfl

/-! ## setResultAndFlag -/

@[simp] theorem State.setResultAndFlag_v (x : Reg) (w : Byte) (b : Bool) : (s.setResultAndFlag x w b).v = (s.v.set x w).set (15 : Reg) (flagByte b) := rfl
@[simp] theorem State.setResultAndFlag_I (x : Reg) (w : Byte) (b : Bool) : (s.setResultAndFlag x w b).I = s.I := rfl
@[simp] theorem State.setResultAndFlag_pc (x : Reg) (w : Byte) (b : Bool) : (s.setResultAndFlag x w b).pc = s.pc := rfl
@[simp] theorem State.setResultAndFlag_stack (x : Reg) (w : Byte) (b : Bool) : (s.setResultAndFlag x w b).stack = s.stack := rfl
@[simp] theorem State.setResultAndFlag_DT (x : Reg) (w : Byte) (b : Bool) : (s.setResultAndFlag x w b).DT = s.DT := rfl
@[simp] theorem State.setResultAndFlag_ST (x : Reg) (w : Byte) (b : Bool) : (s.setResultAndFlag x w b).ST = s.ST := rfl
@[simp] theorem State.setResultAndFlag_fb (x : Reg) (w : Byte) (b : Bool) : (s.setResultAndFlag x w b).fb = s.fb := rfl
@[simp] theorem State.setResultAndFlag_needsRedraw (x : Reg) (w : Byte) (b : Bool) : (s.setResultAndFlag x w b).needsRedraw = s.needsRedraw := rfl
@[simp] theorem State.setResultAndFlag_unknownCount (x : Reg) (w : Byte) (b : Bool) : (s.setResultAndFlag x w b).unknownCount = s.unknownCount := rfl
@[simp] theorem State.setResultAndFlag_status (x : Reg) (w : Byte) (b : Bool) : (s.setResultAndFlag x w b).status = s.status := rfl
@[simp] theorem State.setResultAndFlag_mem (x : Reg) (w : Byte) (b : Bool) : (s.setResultAndFlag x w b).mem = s.mem := rfl
@[simp] theorem State.setResultAndFlag_keys (x : Reg) (w : Byte) (b : Bool) : (s.setResultAndFlag x w b).keys = s.keys := rfl
@[simp] theorem State.setResultAndFlag_rnd (x : Reg) (w : Byte) (b : Bool) : (s.setResultAndFlag x w b).rnd = s.rnd := rfl
@[simp] theorem State.setResultAndFlag_script (x : Reg) (w : Byte) (b : Bool) : (s.setResultAndFlag x w b).script = s.script := rfl
@[simp] theorem State.setResultAndFlag_draws (x : Reg) (w : Byte) (b : Bool) : (s.setResultAndFlag x w b).draws = s.draws := rfl
@[simp] theorem State.setResultAndFlag_readByte (x : Reg) (w : Byte) (b : Bool) (q : Nat) : (s.setResultAndFlag x w b).readByte q = s.readByte q := rfl

/-! ## loadRegsUpTo -/

@[simp] theorem State.loadRegsUpTo_v (x : Reg) (a : Nat) : (s.loadRegsUpTo x a).v = Vector.ofFn fun r : Reg => if r ≤ x then s.readByte (a + r.val) else s.v[r] := rfl
@[simp] theorem State.loadRegsUpTo_I (x : Reg) (a : Nat) : (s.loadRegsUpTo x a).I = s.I := rfl
@[simp] theorem State.loadRegsUpTo_pc (x : Reg) (a : Nat) : (s.loadRegsUpTo x a).pc = s.pc := rfl
@[simp] theorem State.loadRegsUpTo_stack (x : Reg) (a : Nat) : (s.loadRegsUpTo x a).stack = s.stack := rfl
@[simp] theorem State.loadRegsUpTo_DT (x : Reg) (a : Nat) : (s.loadRegsUpTo x a).DT = s.DT := rfl
@[simp] theorem State.loadRegsUpTo_ST (x : Reg) (a : Nat) : (s.loadRegsUpTo x a).ST = s.ST := rfl
@[simp] theorem State.loadRegsUpTo_fb (x : Reg) (a : Nat) : (s.loadRegsUpTo x a).fb = s.fb := rfl
@[simp] theorem State.loadRegsUpTo_needsRedraw (x : Reg) (a : Nat) : (s.loadRegsUpTo x a).needsRedraw = s.needsRedraw := rfl
@[simp] theorem State.loadRegsUpTo_unknownCount (x : Reg) (a : Nat) : (s.loadRegsUpTo x a).unknownCount = s.unknownCount := rfl
@[simp] theorem State.loadRegsUpTo_status (x : Reg) (a : Nat) : (s.loadRegsUpTo x a).status = s.status := rfl
@[simp] theorem State.loadRegsUpTo_mem (x : Reg) (a : Nat) : (s.loadRegsUpTo x a).mem = s.mem := rfl
@[simp] theorem State.loadRegsUpTo_keys (x : Reg) (a : Nat) : (s.loadRegsUpTo x a).keys = s.keys := rfl
@[simp] theorem State.loadRegsUpTo_rnd (x : Reg) (a : Nat) : (s.loadRegsUpTo x a).rnd = s.rnd := rfl
@[simp] theorem State.loadRegsUpTo_script (x : Reg) (a : Nat) : (s.loadRegsUpTo x a).script = s.script := rfl
@[simp] theorem State.loadRegsUpTo_draws (x : Reg) (a : Nat) : (s.loadRegsUpTo x a).draws = s.draws := rfl
@[simp] theorem State.loadRegsUpTo_readByte (x : Reg) (a : Nat) (q : Nat) : (s.loadRegsUpTo x a).readByte q = s.readByte q := rfl

/-! ## setI -/

@[simp] theorem State.setI_v (w : Word) : (s.setI w).v = s.v := rfl
@[simp] theorem State.setI_I (w : Word) : (s.setI w).I = w := rfl
@[simp] theorem State.setI_pc (w : Word) : (s.setI w).pc = s.pc := rfl
@[simp] theorem State.setI_stack (w : Word) : (s.setI w).stack = s.stack := rfl
@[simp] theorem State.setI_DT (w : Word) : (s.setI w).DT = s.DT := rfl
@[simp] theorem State.setI_ST (w : Word) : (s.setI w).ST = s.ST := rfl
@[simp] theorem State.setI_fb (w : Word) : (s.setI w).fb = s.fb := rfl
@[simp] theorem State.setI_needsRedraw (w : Word) : (s.setI w).needsRedraw = s.needsRedraw := rfl
@[simp] theorem State.setI_unknownCount (w : Word) : (s.setI w).unknownCount = s.unknownCount := rfl
@[simp] theorem State.setI_status (w : Word) : (s.setI w).status = s.status := rfl
@[simp] theorem State.setI_mem (w : Word) : (s.setI w).mem = s.mem := rfl
@[simp] theorem State.setI_keys (w : Word) : (s.setI w).keys = s.keys := rfl
@[simp] theorem State.setI_rnd (w : Word) : (s.setI w).rnd = s.rnd := rfl
@[simp] theorem State.setI_script (w : Word) : (s.setI w).script = s.script := rfl
@[simp] theorem State.setI_draws (w : Word) : (s.setI w).draws = s.draws := rfl
@[simp] theorem State.setI_reg (w : Word) (q : Reg) : (s.setI w).reg q = s.reg q := rfl
@[simp] theorem State.setI_readByte (w : Word) (q : Nat) : (s.setI w).readByte q = s.readByte q := rfl

/-! ## setPc -/

@[simp] theorem State.setPc_v (w : Word) : (s.setPc w).v = s.v := rfl
@[simp] theorem State.setPc_I (w : Word) : (s.setPc w).I = s.I := rfl
@[simp] theorem State.setPc_pc (w : Word) : (s.setPc w).pc = w := rfl
@[simp] theorem State.setPc_stack (w : Word) : (s.setPc w).stack = s.stack := rfl
@[simp] theorem State.setPc_DT (w : Word) : (s.setPc w).DT = s.DT := rfl
@[simp] theorem State.setPc_ST (w : Word) : (s.setPc w).ST = s.ST := rfl
@[simp] theorem State.setPc_fb (w : Word) : (s.setPc w).fb = s.fb := rfl
@[simp] theorem State.setPc_needsRedraw (w : Word) : (s.setPc w).needsRedraw = s.needsRedraw := rfl
@[simp] theorem State.setPc_unknownCount (w : Word) : (s.setPc w).unknownCount = s.unknownCount := rfl
@[simp] theorem State.setPc_status (w : Word) : (s.setPc w).status = s.status := rfl
@[simp] theorem State.setPc_mem (w : Word) : (s.setPc w).mem = s.mem := rfl
@[simp] theorem State.setPc_keys (w : Word) : (s.setPc w).keys = s.keys := rfl
@[simp] theorem State.setPc_rnd (w : Word) : (s.setPc w).rnd = s.rnd := rfl
@[simp] theorem State.setPc_script (w : Word) : (s.setPc w).script = s.script := rfl
@[simp] theorem State.setPc_draws (w : Word) : (s.setPc w).draws = s.draws := rfl
@[simp] theorem State.setPc_reg (w : Word) (q : Reg) : (s.setPc w).reg q = s.reg q := rfl
@[simp] theorem State.setPc_readByte (w : Word) (q : Nat) : (s.setPc w).readByte q = s.readByte q := rfl

/-! ## advancePc -/

@[simp] theorem State.advancePc_v : (s.advancePc).v = s.v := rfl
@[simp] theorem State.advancePc_I : (s.advancePc).I = s.I := rfl
@[simp] theorem State.advancePc_pc : (s.advancePc).pc = s.pc + 2#16 := rfl
@[simp] theorem State.advancePc_stack : (s.advancePc).stack = s.stack := rfl
@[simp] theorem State.advancePc_DT : (s.advancePc).DT = s.DT := rfl
@[simp] theorem State.advancePc_ST : (s.advancePc).ST = s.ST := rfl
@[simp] theorem State.advancePc_fb : (s.advancePc).fb = s.fb := rfl
@[simp] theorem State.advancePc_needsRedraw : (s.advancePc).needsRedraw = s.needsRedraw := rfl
@[simp] theorem State.advancePc_unknownCount : (s.advancePc).unknownCount = s.unknownCount := rfl
@[simp] theorem State.advancePc_status : (s.advancePc).status = s.status := rfl
@[simp] theorem State.advancePc_mem : (s.advancePc).mem = s.mem := rfl
@[simp] theorem State.advancePc_keys : (s.advancePc).keys = s.keys := rfl
@[simp] theorem State.advancePc_rnd : (s.advancePc).rnd = s.rnd := rfl
@[simp] theorem State.advancePc_script : (s.advancePc).script = s.script := rfl
@[simp] theorem State.advancePc_draws : (s.advancePc).draws = s.draws := rfl
@[simp] theorem State.advancePc_reg (q : Reg) : (s.advancePc).reg q = s.reg q := rfl
@[simp] theorem State.advancePc_readByte (q : Nat) : (s.advancePc).readByte q = s.readByte q := rfl

/-! ## setStack -/

@[simp] theorem State.setStack_v (st : List Word) : (s.setStack st).v = s.v := rfl
@[simp] theorem State.setStack_I (st : List Word) : (s.setStack st).I = s.I := rfl
@[simp] theorem State.setStack_pc (st : List Word) : (s.setStack st).pc = s.pc := rfl
@[simp] theorem State.setStack_stack (st : List Word) : (s.setStack st).stack = st := rfl
@[simp] theorem State.setStack_DT (st : List Word) : (s.setStack st).DT = s.DT := rfl
@[simp] theorem State.setStack_ST (st : List Word) : (s.setStack st).ST = s.ST := rfl
@[simp] theorem State.setStack_fb (st : List Word) : (s.setStack st).fb = s.fb := rfl
@[simp] theorem State.setStack_needsRedraw (st : List Word) : (s.setStack st).needsRedraw = s.needsRedraw := rfl
@[simp] theorem State.setStack_unknownCount (st : List Word) : (s.setStack st).unknownCount = s.unknownCount := rfl
@[simp] theorem State.setStack_status (st : List Word) : (s.setStack st).status = s.status := rfl
@[simp] theorem State.setStack_mem (st : List Word) : (s.setStack st).mem = s.mem := rfl
@[simp] theorem State.setStack_keys (st : List Word) : (s.setStack st).keys = s.keys := rfl
@[simp] theorem State.setStack_rnd (st : List Word) : (s.setStack st).rnd = s.rnd := rfl
@[simp] theorem State.setStack_script (st : List Word) : (s.setStack st).script = s.script := rfl
@[simp] theorem State.setStack_draws (st : List Word) : (s.setStack st).draws = s.draws := rfl
@[simp] theorem State.setStack_reg (st : List Word) (q : Reg) : (s.setStack st).reg q = s.reg q := rfl
@[simp] theorem State.setStack_readByte (st : List Word) (q : Nat) : (s.setStack st).readByte q = s.readByte q := rfl

/-! ## setDT -/

@[simp] theorem State.setDT_v (w : Byte) : (s.setDT w).v = s.v := rfl
@[simp] theorem State.setDT_I (w : Byte) : (s.setDT w).I = s.I := rfl
@[simp] theorem State.setDT_pc (w : Byte) : (s.setDT w).pc = s.pc := rfl
@[simp] theorem State.setDT_stack (w : Byte) : (s.setDT w).stack = s.stack := rfl
@[simp] theorem State.setDT_DT (w : Byte) : (s.setDT w).DT = w := rfl
@[simp] theorem State.setDT_ST (w : Byte) : (s.setDT w).ST = s.ST := rfl
@[simp] theorem State.setDT_fb (w : Byte) : (s.setDT w).fb = s.fb := rfl
@[simp] theorem State.setDT_needsRedraw (w : Byte) : (s.setDT w).needsRedraw = s.needsRedraw := rfl
@[simp] theorem State.setDT_unknownCount (w : Byte) : (s.setDT w).unknownCount = s.unknownCount := rfl
@[simp] theorem State.setDT_status (w : Byte) : (s.setDT w).status = s.status := rfl
@[simp] theorem State.setDT_mem (w : Byte) : (s.setDT w).mem = s.mem := rfl
@[simp] theorem State.setDT_keys (w : Byte) : (s.setDT w).keys = s.keys := rfl
@[simp] theorem State.setDT_rnd (w : Byte) : (s.setDT w).rnd = s.rnd := rfl
@[simp] theorem State.setDT_script (w : Byte) : (s.setDT w).script = s.script := rfl
@[simp] theorem State.setDT_draws (w : Byte) : (s.setDT w).draws = s.draws := rfl
@[simp] theorem State.setDT_reg (w : Byte) (q : Reg) : (s.setDT w).reg q = s.reg q := rfl
@[simp] theorem State.setDT_readByte (w : Byte) (q : Nat) : (s.setDT w).readByte q = s.readByte q := rfl

/-! ## setST -/

@[simp] theorem State.setST_v (w : Byte) : (s.setST w).v = s.v := rfl
@[simp] theorem State.setST_I (w : Byte) : (s.setST w).I = s.I := rfl
@[simp] theorem State.setST_pc (w : Byte) : (s.setST w).pc = s.pc := rfl
@[simp] theorem State.setST_stack (w : Byte) : (s.setST w).stack = s.stack := rfl
@[simp] theorem State.setST_DT (w : Byte) : (s.setST w).DT = s.DT := rfl
@[simp] theorem State.setST_ST (w : Byte) : (s.setST w).ST = w := rfl
@[simp] theorem State.setST_fb (w : Byte) : (s.setST w).fb = s.fb := rfl
@[simp] theorem State.setST_needsRedraw (w : Byte) : (s.setST w).needsRedraw = s.needsRedraw := rfl
@[simp] theorem State.setST_unknownCount (w : Byte) : (s.setST w).unknownCount = s.unknownCount := rfl
@[simp] theorem State.setST_status (w : Byte) : (s.setST w).status = s.status := rfl
@[simp] theorem State.setST_mem (w : Byte) : (s.setST w).mem = s.mem := rfl
@[simp] theorem State.setST_keys (w : Byte) : (s.setST w).keys = s.keys := rfl
@[simp] theorem State.setST_rnd (w : Byte) : (s.setST w).rnd = s.rnd := rfl
@[simp] theorem State.setST_script (w : Byte) : (s.setST w).script = s.script := rfl
@[simp] theorem State.setST_draws (w : Byte) : (s.setST w).draws = s.draws := rfl
@[simp] theorem State.setST_reg (w : Byte) (q : Reg) : (s.setST w).reg q = s.reg q := rfl
@[simp] theorem State.setST_readByte (w : Byte) (q : Nat) : (s.setST w).readByte q = s.readByte q := rfl

/-! ## setFb -/

@[simp] theorem State.setFb_v (fb : Framebuffer) : (s.setFb fb).v = s.v := rfl
@[simp] theorem State.setFb_I (fb : Framebuffer) : (s.setFb fb).I = s.I := rfl
@[simp] theorem State.setFb_pc (fb : Framebuffer) : (s.setFb fb).pc = s.pc := rfl
@[simp] theorem State.setFb_stack (fb : Framebuffer) : (s.setFb fb).stack = s.stack := rfl
@[simp] theorem State.setFb_DT (fb : Framebuffer) : (s.setFb fb).DT = s.DT := rfl
@[simp] theorem State.setFb_ST (fb : Framebuffer) : (s.setFb fb).ST = s.ST := rfl
@[simp] theorem State.setFb_fb (fb : Framebuffer) : (s.setFb fb).fb = fb := rfl
@[simp] theorem State.setFb_needsRedraw (fb : Framebuffer) : (s.setFb fb).needsRedraw = s.needsRedraw := rfl
@[simp] theorem State.setFb_unknownCount (fb : Framebuffer) : (s.setFb fb).unknownCount = s.unknownCount := rfl
@[simp] theorem State.setFb_status (fb : Framebuffer) : (s.setFb fb).status = s.status := rfl
@[simp] theorem State.setFb_mem (fb : Framebuffer) : (s.setFb fb).mem = s.mem := rfl
@[simp] theorem State.setFb_keys (fb : Framebuffer) : (s.setFb fb).keys = s.keys := rfl
@[simp] theorem State.setFb_rnd (fb : Framebuffer) : (s.setFb fb).rnd = s.rnd := rfl
@[simp] theorem State.setFb_script (fb : Framebuffer) : (s.setFb fb).script = s.script := rfl
@[simp] theorem State.setFb_draws (fb : Framebuffer) : (s.setFb fb).draws = s.draws := rfl
@[simp] theorem State.setFb_reg (fb : Framebuffer) (q : Reg) : (s.setFb fb).reg q = s.reg q := rfl
@[simp] theorem State.setFb_readByte (fb : Framebuffer) (q : Nat) : (s.setFb fb).readByte q = s.readByte q := rfl

/-! ## setRedraw -/

@[simp] theorem State.setRedraw_v : (s.setRedraw).v = s.v := rfl
@[simp] theorem State.setRedraw_I : (s.setRedraw).I = s.I := rfl
@[simp] theorem State.setRedraw_pc : (s.setRedraw).pc = s.pc := rfl
@[simp] theorem State.setRedraw_stack : (s.setRedraw).stack = s.stack := rfl
@[simp] theorem State.setRedraw_DT : (s.setRedraw).DT = s.DT := rfl
@[simp] theorem State.setRedraw_ST : (s.setRedraw).ST = s.ST := rfl
@[simp] theorem State.setRedraw_fb : (s.setRedraw).fb = s.fb := rfl
@[simp] theorem State.setRedraw_needsRedraw : (s.setRedraw).needsRedraw = true := rfl
@[simp] theorem State.setRedraw_unknownCount : (s.setRedraw).unknownCount = s.unknownCount := rfl
@[simp] theorem State.setRedraw_status : (s.setRedraw).status = s.status := rfl
@[simp] theorem State.setRedraw_mem : (s.setRedraw).mem = s.mem := rfl
@[simp] theorem State.setRedraw_keys : (s.setRedraw).keys = s.keys := rfl
@[simp] theorem State.setRedraw_rnd : (s.setRedraw).rnd = s.rnd := rfl
@[simp] theorem State.setRedraw_script : (s.setRedraw).script = s.script := rfl
@[simp] theorem State.setRedraw_draws : (s.setRedraw).draws = s.draws := rfl
@[simp] theorem State.setRedraw_reg (q : Reg) : (s.setRedraw).reg q = s.reg q := rfl
@[simp] theorem State.setRedraw_readByte (q : Nat) : (s.setRedraw).readByte q = s.readByte q := rfl

/-! ## raiseHalt -/

@[simp] theorem State.raiseHalt_v (c : HaltCause) : (s.raiseHalt c).v = s.v := rfl
@[simp] theorem State.raiseHalt_I (c : HaltCause) : (s.raiseHalt c).I = s.I := rfl
@[simp] theorem State.raiseHalt_pc (c : HaltCause) : (s.raiseHalt c).pc = s.pc := rfl
@[simp] theorem State.raiseHalt_stack (c : HaltCause) : (s.raiseHalt c).stack = s.stack := rfl
@[simp] theorem State.raiseHalt_DT (c : HaltCause) : (s.raiseHalt c).DT = s.DT := rfl
@[simp] theorem State.raiseHalt_ST (c : HaltCause) : (s.raiseHalt c).ST = s.ST := rfl
@[simp] theorem State.raiseHalt_fb (c : HaltCause) : (s.raiseHalt c).fb = s.fb := rfl
@[simp] theorem State.raiseHalt_needsRedraw (c : HaltCause) : (s.raiseHalt c).needsRedraw = s.needsRedraw := rfl
@[simp] theorem State.raiseHalt_unknownCount (c : HaltCause) : (s.raiseHalt c).unknownCount = s.unknownCount := rfl
@[simp] theorem State.raiseHalt_status (c : HaltCause) : (s.raiseHalt c).status = .halted c := rfl
@[simp] theorem State.raiseHalt_mem (c : HaltCause) : (s.raiseHalt c).mem = s.mem := rfl
@[simp] theorem State.raiseHalt_keys (c : HaltCause) : (s.raiseHalt c).keys = s.keys := rfl
@[simp] theorem State.raiseHalt_rnd (c : HaltCause) : (s.raiseHalt c).rnd = s.rnd := rfl
@[simp] theorem State.raiseHalt_script (c : HaltCause) : (s.raiseHalt c).script = s.script := rfl
@[simp] theorem State.raiseHalt_draws (c : HaltCause) : (s.raiseHalt c).draws = s.draws := rfl
@[simp] theorem State.raiseHalt_reg (c : HaltCause) (q : Reg) : (s.raiseHalt c).reg q = s.reg q := rfl
@[simp] theorem State.raiseHalt_readByte (c : HaltCause) (q : Nat) : (s.raiseHalt c).readByte q = s.readByte q := rfl

/-! ## countUnknown -/

@[simp] theorem State.countUnknown_v : (s.countUnknown).v = s.v := rfl
@[simp] theorem State.countUnknown_I : (s.countUnknown).I = s.I := rfl
@[simp] theorem State.countUnknown_pc : (s.countUnknown).pc = s.pc := rfl
@[simp] theorem State.countUnknown_stack : (s.countUnknown).stack = s.stack := rfl
@[simp] theorem State.countUnknown_DT : (s.countUnknown).DT = s.DT := rfl
@[simp] theorem State.countUnknown_ST : (s.countUnknown).ST = s.ST := rfl
@[simp] theorem State.countUnknown_fb : (s.countUnknown).fb = s.fb := rfl
@[simp] theorem State.countUnknown_needsRedraw : (s.countUnknown).needsRedraw = s.needsRedraw := rfl
@[simp] theorem State.countUnknown_unknownCount : (s.countUnknown).unknownCount = s.unknownCount + 1 := rfl
@[simp] theorem State.countUnknown_status : (s.countUnknown).status = s.status := rfl
@[simp] theorem State.countUnknown_mem : (s.countUnknown).mem = s.mem := rfl
@[simp] theorem State.countUnknown_keys : (s.countUnknown).keys = s.keys := rfl
@[simp] theorem State.countUnknown_rnd : (s.countUnknown).rnd = s.rnd := rfl
@[simp] theorem State.countUnknown_script : (s.countUnknown).script = s.script := rfl
@[simp] theorem State.countUnknown_draws : (s.countUnknown).draws = s.draws := rfl
@[simp] theorem State.countUnknown_reg (q : Reg) : (s.countUnknown).reg q = s.reg q := rfl
@[simp] theorem State.countUnknown_readByte (q : Nat) : (s.countUnknown).readByte q = s.readByte q := rfl

/-! ## storeBytes -/

@[simp] theorem State.storeBytes_v (a : Nat) (ws : List Byte) : (s.storeBytes a ws).v = s.v := rfl
@[simp] theorem State.storeBytes_I (a : Nat) (ws : List Byte) : (s.storeBytes a ws).I = s.I := rfl
@[simp] theorem State.storeBytes_pc (a : Nat) (ws : List Byte) : (s.storeBytes a ws).pc = s.pc := rfl
@[simp] theorem State.storeBytes_stack (a : Nat) (ws : List Byte) : (s.storeBytes a ws).stack = s.stack := rfl
@[simp] theorem State.storeBytes_DT (a : Nat) (ws : List Byte) : (s.storeBytes a ws).DT = s.DT := rfl
@[simp] theorem State.storeBytes_ST (a : Nat) (ws : List Byte) : (s.storeBytes a ws).ST = s.ST := rfl
@[simp] theorem State.storeBytes_fb (a : Nat) (ws : List Byte) : (s.storeBytes a ws).fb = s.fb := rfl
@[simp] theorem State.storeBytes_needsRedraw (a : Nat) (ws : List Byte) : (s.storeBytes a ws).needsRedraw = s.needsRedraw := rfl
@[simp] theorem State.storeBytes_unknownCount (a : Nat) (ws : List Byte) : (s.storeBytes a ws).unknownCount = s.unknownCount := rfl
@[simp] theorem State.storeBytes_status (a : Nat) (ws : List Byte) : (s.storeBytes a ws).status = s.status := rfl
@[simp] theorem State.storeBytes_mem (a : Nat) (ws : List Byte) : (s.storeBytes a ws).mem = Memory.writeList s.mem a ws := rfl
@[simp] theorem State.storeBytes_keys (a : Nat) (ws : List Byte) : (s.storeBytes a ws).keys = s.keys := rfl
@[simp] theorem State.storeBytes_rnd (a : Nat) (ws : List Byte) : (s.storeBytes a ws).rnd = s.rnd := rfl
@[simp] theorem State.storeBytes_script (a : Nat) (ws : List Byte) : (s.storeBytes a ws).script = s.script := rfl
@[simp] theorem State.storeBytes_draws (a : Nat) (ws : List Byte) : (s.storeBytes a ws).draws = s.draws := rfl
@[simp] theorem State.storeBytes_reg (a : Nat) (ws : List Byte) (q : Reg) : (s.storeBytes a ws).reg q = s.reg q := rfl

/-! ## tickTimers -/

@[simp] theorem State.tickTimers_v : (s.tickTimers).v = s.v := rfl
@[simp] theorem State.tickTimers_I : (s.tickTimers).I = s.I := rfl
@[simp] theorem State.tickTimers_pc : (s.tickTimers).pc = s.pc := rfl
@[simp] theorem State.tickTimers_stack : (s.tickTimers).stack = s.stack := rfl
@[simp] theorem State.tickTimers_DT : (s.tickTimers).DT = countDown s.DT := rfl
@[simp] theorem State.tickTimers_ST : (s.tickTimers).ST = countDown s.ST := rfl
@[simp] theorem State.tickTimers_fb : (s.tickTimers).fb = s.fb := rfl
@[simp] theorem State.tickTimers_needsRedraw : (s.tickTimers).needsRedraw = s.needsRedraw := rfl
@[simp] theorem State.tickTimers_unknownCount : (s.tickTimers).unknownCount = s.unknownCount := rfl
@[simp] theorem State.tickTimers_status : (s.tickTimers).status = s.status := rfl
@[simp] theorem State.tickTimers_mem : (s.tickTimers).mem = s.mem := rfl
@[simp] theorem State.tickTimers_keys : (s.tickTimers).keys = s.keys := rfl
@[simp] theorem State.tickTimers_rnd : (s.tickTimers).rnd = s.rnd := rfl
@[simp] theorem State.tickTimers_script : (s.tickTimers).script = s.script := rfl
@[simp] theorem State.tickTimers_draws : (s.tickTimers).draws = s.draws := rfl
@[simp] theorem State.tickTimers_reg (q : Reg) : (s.tickTimers).reg q = s.reg q := rfl
@[simp] theorem State.tickTimers_readByte (q : Nat) : (s.tickTimers).readByte q = s.readByte q := rfl

/-! ## consumeRedraw -/

@[simp] theorem State.consumeRedraw_v : (s.consumeRedraw).v = s.v := rfl
@[simp] theorem State.consumeRedraw_I : (s.consumeRedraw).I = s.I := rfl
@[simp] theorem State.consumeRedraw_pc : (s.consumeRedraw).pc = s.pc := rfl
@[simp] theorem State.consumeRedraw_stack : (s.consumeRedraw).stack = s.stack := rfl
@[simp] theorem State.consumeRedraw_DT : (s.consumeRedraw).DT = s.DT := rfl
@[simp] theorem State.consumeRedraw_ST : (s.consumeRedraw).ST = s.ST := rfl
@[simp] theorem State.consumeRedraw_fb : (s.consumeRedraw).fb = s.fb := rfl
@[simp] theorem State.consumeRedraw_needsRedraw : (s.consumeRedraw).needsRedraw = false := rfl
@[simp] theorem State.consumeRedraw_unknownCount : (s.consumeRedraw).unknownCount = s.unknownCount := rfl
@[simp] theorem State.consumeRedraw_status : (s.consumeRedraw).status = s.status := rfl
@[simp] theorem State.consumeRedraw_mem : (s.consumeRedraw).mem = s.mem := rfl
@[simp] theorem State.consumeRedraw_keys : (s.consumeRedraw).keys = s.keys := rfl
@[simp] theorem State.consumeRedraw_rnd : (s.consumeRedraw).rnd = s.rnd := rfl
@[simp] theorem State.consumeRedraw_script : (s.consumeRedraw).script = s.script := rfl
@[simp] theorem State.consumeRedraw_draws : (s.consumeRedraw).draws = s.draws := rfl
@[simp] theorem State.consumeRedraw_reg (q : Reg) : (s.consumeRedraw).reg q = s.reg q := rfl
@[simp] theorem State.consumeRedraw_readByte (q : Nat) : (s.consumeRedraw).readByte q = s.readByte q := rfl

/-! ## setInputs -/

@[simp] theorem State.setInputs_v (k : BitVec 16) (w : Byte) : (s.setInputs k w).v = s.v := rfl
@[simp] theorem State.setInputs_I (k : BitVec 16) (w : Byte) : (s.setInputs k w).I = s.I := rfl
@[simp] theorem State.setInputs_pc (k : BitVec 16) (w : Byte) : (s.setInputs k w).pc = s.pc := rfl
@[simp] theorem State.setInputs_stack (k : BitVec 16) (w : Byte) : (s.setInputs k w).stack = s.stack := rfl
@[simp] theorem State.setInputs_DT (k : BitVec 16) (w : Byte) : (s.setInputs k w).DT = s.DT := rfl
@[simp] theorem State.setInputs_ST (k : BitVec 16) (w : Byte) : (s.setInputs k w).ST = s.ST := rfl
@[simp] theorem State.setInputs_fb (k : BitVec 16) (w : Byte) : (s.setInputs k w).fb = s.fb := rfl
@[simp] theorem State.setInputs_needsRedraw (k : BitVec 16) (w : Byte) : (s.setInputs k w).needsRedraw = s.needsRedraw := rfl
@[simp] theorem State.setInputs_unknownCount (k : BitVec 16) (w : Byte) : (s.setInputs k w).unknownCount = s.unknownCount := rfl
@[simp] theorem State.setInputs_status (k : BitVec 16) (w : Byte) : (s.setInputs k w).status = s.status := rfl
@[simp] theorem State.setInputs_mem (k : BitVec 16) (w : Byte) : (s.setInputs k w).mem = s.mem := rfl
@[simp] theorem State.setInputs_keys (k : BitVec 16) (w : Byte) : (s.setInputs k w).keys = k := rfl
@[simp] theorem State.setInputs_rnd (k : BitVec 16) (w : Byte) : (s.setInputs k w).rnd = w := rfl
@[simp] theorem State.setInputs_script (k : BitVec 16) (w : Byte) : (s.setInputs k w).script = s.script := rfl
@[simp] theorem State.setInputs_draws (k : BitVec 16) (w : Byte) : (s.setInputs k w).draws = s.draws := rfl
@[simp] theorem State.setInputs_reg (k : BitVec 16) (w : Byte) (q : Reg) : (s.setInputs k w).reg q = s.reg q := rfl
@[simp] theorem State.setInputs_readByte (k : BitVec 16) (w : Byte) (q : Nat) : (s.setInputs k w).readByte q = s.readByte q := rfl

/-! ## setScript -/

@[simp] theorem State.setScript_v (l : List HostTurn) : (s.setScript l).v = s.v := rfl
@[simp] theorem State.setScript_I (l : List HostTurn) : (s.setScript l).I = s.I := rfl
@[simp] theorem State.setScript_pc (l : List HostTurn) : (s.setScript l).pc = s.pc := rfl
@[simp] theorem State.setScript_stack (l : List HostTurn) : (s.setScript l).stack = s.stack := rfl
@[simp] theorem State.setScript_DT (l : List HostTurn) : (s.setScript l).DT = s.DT := rfl
@[simp] theorem State.setScript_ST (l : List HostTurn) : (s.setScript l).ST = s.ST := rfl
@[simp] theorem State.setScript_fb (l : List HostTurn) : (s.setScript l).fb = s.fb := rfl
@[simp] theorem State.setScript_needsRedraw (l : List HostTurn) : (s.setScript l).needsRedraw = s.needsRedraw := rfl
@[simp] theorem State.setScript_unknownCount (l : List HostTurn) : (s.setScript l).unknownCount = s.unknownCount := rfl
@[simp] theorem State.setScript_status (l : List HostTurn) : (s.setScript l).status = s.status := rfl
@[simp] theorem State.setScript_mem (l : List HostTurn) : (s.setScript l).mem = s.mem := rfl
@[simp] theorem State.setScript_keys (l : List HostTurn) : (s.setScript l).keys = s.keys := rfl
@[simp] theorem State.setScript_rnd (l : List HostTurn) : (s.setScript l).rnd = s.rnd := rfl
@[simp] theorem State.setScript_script (l : List HostTurn) : (s.setScript l).script = l := rfl
@[simp] theorem State.setScript_draws (l : List HostTurn) : (s.setScript l).draws = s.draws := rfl
@[simp] theorem State.setScript_reg (l : List HostTurn) (q : Reg) : (s.setScript l).reg q = s.reg q := rfl
@[simp] theorem State.setScript_readByte (l : List HostTurn) (q : Nat) : (s.setScript l).readByte q = s.readByte q := rfl

/-! ## afterHost -/

@[simp] theorem State.afterHost_v (l : List HostOp) : (s.afterHost l).v = s.v := rfl
@[simp] theorem State.afterHost_I (l : List HostOp) : (s.afterHost l).I = s.I := rfl
@[simp] theorem State.afterHost_pc (l : List HostOp) : (s.afterHost l).pc = s.pc := rfl
@[simp] theorem State.afterHost_stack (l : List HostOp) : (s.afterHost l).stack = s.stack := rfl
@[simp] theorem State.afterHost_DT (l : List HostOp) : (s.afterHost l).DT = (hostEffects l s).DT := rfl
@[simp] theorem State.afterHost_ST (l : List HostOp) : (s.afterHost l).ST = (hostEffects l s).ST := rfl
@[simp] theorem State.afterHost_fb (l : List HostOp) : (s.afterHost l).fb = s.fb := rfl
@[simp] theorem State.afterHost_needsRedraw (l : List HostOp) : (s.afterHost l).needsRedraw = (hostEffects l s).needsRedraw := rfl
@[simp] theorem State.afterHost_unknownCount (l : List HostOp) : (s.afterHost l).unknownCount = s.unknownCount := rfl
@[simp] theorem State.afterHost_status (l : List HostOp) : (s.afterHost l).status = s.status := rfl
@[simp] theorem State.afterHost_mem (l : List HostOp) : (s.afterHost l).mem = s.mem := rfl
@[simp] theorem State.afterHost_keys (l : List HostOp) : (s.afterHost l).keys = s.keys := rfl
@[simp] theorem State.afterHost_rnd (l : List HostOp) : (s.afterHost l).rnd = s.rnd := rfl
@[simp] theorem State.afterHost_script (l : List HostOp) : (s.afterHost l).script = s.script := rfl
@[simp] theorem State.afterHost_draws (l : List HostOp) : (s.afterHost l).draws = s.draws := rfl
@[simp] theorem State.afterHost_reg (l : List HostOp) (q : Reg) : (s.afterHost l).reg q = s.reg q := rfl
@[simp] theorem State.afterHost_readByte (l : List HostOp) (q : Nat) : (s.afterHost l).readByte q = s.readByte q := rfl

/-! ## drawInputs -/

@[simp] theorem State.drawInputs_v : (s.drawInputs).v = s.v := rfl
@[simp] theorem State.drawInputs_I : (s.drawInputs).I = s.I := rfl
@[simp] theorem State.drawInputs_pc : (s.drawInputs).pc = s.pc := rfl
@[simp] theorem State.drawInputs_stack : (s.drawInputs).stack = s.stack := rfl
@[simp] theorem State.drawInputs_DT : (s.drawInputs).DT = s.DT := rfl
@[simp] theorem State.drawInputs_ST : (s.drawInputs).ST = s.ST := rfl
@[simp] theorem State.drawInputs_fb : (s.drawInputs).fb = s.fb := rfl
@[simp] theorem State.drawInputs_needsRedraw : (s.drawInputs).needsRedraw = s.needsRedraw := rfl
@[simp] theorem State.drawInputs_unknownCount : (s.drawInputs).unknownCount = s.unknownCount := rfl
@[simp] theorem State.drawInputs_status : (s.drawInputs).status = s.status := rfl
@[simp] theorem State.drawInputs_mem : (s.drawInputs).mem = s.mem := rfl
@[simp] theorem State.drawInputs_keys : (s.drawInputs).keys = Config.freeKeys s.draws := rfl
@[simp] theorem State.drawInputs_rnd : (s.drawInputs).rnd = Config.freeRnd s.draws := rfl
@[simp] theorem State.drawInputs_script : (s.drawInputs).script = s.script := rfl
@[simp] theorem State.drawInputs_draws : (s.drawInputs).draws = s.draws + 1 := rfl
@[simp] theorem State.drawInputs_reg (q : Reg) : (s.drawInputs).reg q = s.reg q := rfl
@[simp] theorem State.drawInputs_readByte (q : Nat) : (s.drawInputs).readByte q = s.readByte q := rfl

end Sys2Proof.Machine
end

