-- ==== Sys2Proof/Laws/Ops.lean ====
section
/-! SUPPORT. One lemma for each shared operation: what registers, the stack, skips, checked accesses, the screen and the
host's operations do. -/

namespace Sys2Proof.Machine

/-! ## Registers -/

@[simp] theorem State.reg_setReg (s : State) (r q : Reg) (w : Byte) :
    (s.setReg r w).reg q = if q = r then w else s.reg q := by
  simp only [State.reg, State.setReg, Fin.getElem_fin, Vector.getElem_set, Fin.ext_iff, eq_comm]

@[simp] theorem State.reg_setFlag (s : State) (q : Reg) (b : Bool) :
    (s.setFlag b).reg q = if q = 15 then flagByte b else s.reg q :=
  State.reg_setReg s 15 q _

/-- The flag lands last: register 15 holds it whatever the destination. -/
theorem State.reg_setResultAndFlag (s : State) (x q : Reg) (w : Byte) (b : Bool) :
    (s.setResultAndFlag x w b).reg q = if q = 15 then flagByte b else if q = x then w else s.reg q := by
  rw [State.setResultAndFlag, State.reg_setFlag, State.reg_setReg]

theorem State.reg_loadRegsUpTo (s : State) (x q : Reg) (a : Nat) :
    (s.loadRegsUpTo x a).reg q = if q ≤ x then s.readByte (a + q.val) else s.reg q := by
  simp only [State.reg, State.loadRegsUpTo, Fin.getElem_fin, Vector.getElem_ofFn]

theorem State.regsUpTo_length (s : State) (x : Reg) : (s.regsUpTo x).length = x.val + 1 := by
  have h : s.v.toList.length = 16 := Vector.length_toList
  rw [State.regsUpTo, List.length_take, h]
  omega

theorem State.regsUpTo_getD (s : State) (x q : Reg) (h : q ≤ x) : (s.regsUpTo x).getD q.val 0#8 = s.reg q := by
  have hq : q.val < x.val + 1 := Nat.lt_succ_of_le h
  simp [State.regsUpTo, State.reg, List.getD_eq_getElem?_getD, hq]

@[simp] theorem flagByte_toNat (b : Bool) : (flagByte b).toNat = if b = true then 1 else 0 := by
  cases b <;> rfl

theorem shiftedOutLow_eq (a : Byte) : shiftedOutLow a = decide (a.toNat % 2 = 1) := by
  rw [shiftedOutLow, ← BitVec.testBit_toNat, Nat.testBit_zero]

theorem shiftedOutHigh_eq (a : Byte) : shiftedOutHigh a = decide (a.toNat / 128 = 1) := by
  have := a.isLt
  rw [shiftedOutHigh, ← BitVec.testBit_toNat, Nat.testBit_eq_decide_div_mod_eq]
  congr 1
  simp only [eq_iff_iff]
  omega

/-! ## The stack -/

theorem State.push_eq_some (s : State) (w : Word) (h : s.sp < 16) : s.push w = some (s.setStack (w :: s.stack)) :=
  if_pos h

theorem State.push_eq_none (s : State) (w : Word) (h : 16 ≤ s.sp) : s.push w = none :=
  if_neg (Nat.not_lt.2 h)

theorem State.pop_cons (s : State) (w : Word) (rest : List Word) (h : s.stack = w :: rest) :
    s.pop = some (w, s.setStack rest) := by
  simp [State.pop, h]

theorem State.pop_nil (s : State) (h : s.stack = []) : s.pop = none := by
  simp [State.pop, h]

/-! ## Skips -/

theorem State.skipIf_eq (s : State) (b : Bool) :
    s.skipIf b = s.setPc (s.pc + if b = true then 2#16 else 0#16) := by
  cases b
  · simp [State.skipIf, State.setPc]
  · rfl

/-! ## Checked accesses -/

theorem State.badAddress_eq_none (s : State) (count : Nat) (h : count = 0 ∨ s.I.toNat + count ≤ 4096) :
    s.badAddress count = none := by
  refine if_neg fun hc => ?_
  obtain ⟨h0, h1⟩ := hc
  simp only [State.dataAddress, Config.memSize] at h1
  omega

theorem State.badAddress_eq_some (s : State) (count : Nat) (h0 : 0 < count) (h : 4096 < s.I.toNat + count) :
    s.badAddress count = some (max s.I.toNat 4096) :=
  if_pos ⟨h0, h⟩

/-- A checked access either completes with every address in memory, or halts with the lowest address that is not. -/
theorem State.accessOrHalt_cases (s : State) (count : Nat) (done : State) :
    ((count = 0 ∨ s.I.toNat + count ≤ 4096) ∧ s.accessOrHalt count done = done) ∨
    (0 < count ∧ 4096 < s.I.toNat + count ∧
      s.accessOrHalt count done = s.raiseHalt (.outOfBoundsAccess (max s.I.toNat 4096))) := by
  by_cases h : count = 0 ∨ s.I.toNat + count ≤ 4096
  · exact .inl ⟨h, by rw [State.accessOrHalt, s.badAddress_eq_none count h]⟩
  · have h0 : 0 < count := by omega
    have h1 : 4096 < s.I.toNat + count := by omega
    exact .inr ⟨h0, h1, by rw [State.accessOrHalt, s.badAddress_eq_some count h0 h1]⟩

/-! ## The screen -/

theorem Framebuffer.pixel_clear (x y : Nat) : Framebuffer.clear.pixel x y = false := by
  simp [Framebuffer.pixel, Framebuffer.clear]

/-- Flipping a pixel flips it and no other. -/
theorem Framebuffer.pixel_flip (fb : Framebuffer) (x y px py : Nat) :
    (fb.flip x y).pixel px py =
      (fb.pixel px py ^^ decide (px % 64 = x % 64 ∧ py % 32 = y % 32)) := by
  have hlt : px % 64 < 64 := Nat.mod_lt _ (by decide)
  simp only [Framebuffer.pixel, Framebuffer.flip, Fin.getElem_fin, Vector.getElem_set, pixelRow, pixelCol, Fin.val_ofNat,
    Config.fbWidth]
  by_cases hy : y % 32 = py % 32
  · simp [hy, BitVec.getLsbD_twoPow, eq_comm]
    intro h
    omega
  · have : ¬ py % 32 = y % 32 := fun h => hy h.symm
    simp [hy, this]

/-! ## The host -/

@[simp] theorem countDown_toNat (w : Byte) : (countDown w).toNat = w.toNat - 1 := by
  unfold countDown
  split
  · subst w; rfl
  · rename_i h
    have : w.toNat ≠ 0 := fun h0 => h (BitVec.eq_of_toNat_eq (by simpa using h0))
    rw [BitVec.toNat_sub, BitVec.toNat_ofNat]
    have := w.isLt
    omega

/-- Host operations change the timers and the redraw flag, and nothing else. -/
theorem hostEffects_eq (ops : List HostOp) (s : State) :
    ∃ (dt st : Byte) (b : Bool), hostEffects ops s = { s with DT := dt, ST := st, needsRedraw := b } := by
  induction ops generalizing s with
  | nil => exact ⟨s.DT, s.ST, s.needsRedraw, rfl⟩
  | cons op ops ih =>
    obtain ⟨dt, st, b, h⟩ := ih (hostEffect op s)
    exact ⟨dt, st, b, by rw [hostEffects, h]; cases op <;> rfl⟩

/-- Taking from the operations only what they can change loses nothing. -/
theorem State.afterHost_eq (s : State) (ops : List HostOp) : s.afterHost ops = hostEffects ops s := by
  obtain ⟨dt, st, b, h⟩ := hostEffects_eq ops s
  rw [State.afterHost, h]

/-- The host's turn changes the timers, the redraw flag, the inputs and the script, and nothing else. -/
theorem hostTurn_eq (s : State) :
    ∃ (dt st : Byte) (b : Bool) (keys : BitVec 16) (rnd : Byte) (script : List HostTurn) (draws : Nat),
      hostTurn s = { s with DT := dt, ST := st, needsRedraw := b, keys := keys, rnd := rnd, script := script, draws := draws } := by
  unfold hostTurn
  split <;> exact ⟨_, _, _, _, _, _, _, rfl⟩

end Sys2Proof.Machine
end

