-- ==== Sys2Proof/Laws/Display.lean ====
section
/-! SUPPORT. What a sprite draw does to each pixel and to the collision flag (spec 44_display.md R270, R272, R273):
one row, then all rows, each said once. -/

namespace Sys2Proof.Machine

/-- One of the first `k` columns of a sprite byte drawn at `x` has a set bit and falls on column `px`. -/
def rowHits (x : Nat) (row : Byte) (k px : Nat) : Bool :=
  (List.range k).any fun col => spriteBit row col && decide (px % 64 = (x + col) % 64)

/-- One of the `n` sprite rows from address `a` has a set bit that falls on pixel (px, py). -/
def spriteHits (m : Memory) (x n y a px py : Nat) : Bool :=
  (List.range n).any fun row => decide (py % 32 = (y + row) % 32) && rowHits x (Memory.read m (a + row)) 8 px

theorem rowHits_succ (x : Nat) (row : Byte) (k px : Nat) :
    rowHits x row (k + 1) px = (rowHits x row k px || (spriteBit row k && decide (px % 64 = (x + k) % 64))) := by
  simp [rowHits, List.range_succ]

theorem spriteHits_succ (m : Memory) (x n y a px py : Nat) :
    spriteHits m x (n + 1) y a px py =
      ((decide (py % 32 = y % 32) && rowHits x (Memory.read m a) 8 px) || spriteHits m x n (y + 1) (a + 1) px py) := by
  simp [spriteHits, List.range_succ_eq_map, List.any_map, Function.comp_def, Nat.add_assoc, Nat.add_comm 1]

/-- Columns fewer than 64 apart do not meet: no earlier column of a row falls on column `x + k`. -/
theorem rowHits_next (x : Nat) (row : Byte) (k : Nat) (hk : k < 64) : rowHits x row k (x + k) = false := by
  simp only [rowHits, List.any_eq_false, List.mem_range, Bool.and_eq_true, decide_eq_true_eq, not_and]
  intro col hc _
  omega

theorem Blit.pixel_plot (b : Blit) (x y px py : Nat) (bit : Bool) :
    (b.plot x y bit).fb.pixel px py =
      (b.fb.pixel px py ^^ (bit && decide (px % 64 = x % 64 ∧ py % 32 = y % 32))) := by
  cases bit
  · simp [Blit.plot]
  · simp [Blit.plot, Framebuffer.pixel_flip]

theorem Blit.collision_plot (b : Blit) (x y : Nat) (bit : Bool) :
    (b.plot x y bit).collision = (b.collision || (bit && b.fb.pixel x y)) := by
  cases bit <;> simp [Blit.plot]

/-- The first `k` columns of a row. -/
theorem Blit.foldl_plot (b : Blit) (x y : Nat) (row : Byte) (k : Nat) (hk : k ≤ 64) :
    let r := (List.range k).foldl (fun b col => b.plot (x + col) y (spriteBit row col)) b
    (∀ px py, r.fb.pixel px py = (b.fb.pixel px py ^^ (decide (py % 32 = y % 32) && rowHits x row k px))) ∧
    r.collision = (b.collision || (List.range k).any fun col => spriteBit row col && b.fb.pixel (x + col) y) := by
  induction k with
  | zero => simp [rowHits]
  | succ k ih =>
    obtain ⟨hp, hc⟩ := ih (by omega)
    simp only [List.range_succ, List.foldl_append, List.foldl_cons, List.foldl_nil]
    refine ⟨fun px py => ?_, ?_⟩
    · rw [Blit.pixel_plot, hp, rowHits_succ]
      by_cases h : px % 64 = (x + k) % 64
      · have h0 : rowHits x row k px = false := by
          rw [← rowHits_next x row k (by omega)]
          simp only [rowHits, h]
        by_cases hy : py % 32 = y % 32 <;> simp [h, h0, hy]
      · by_cases hy : py % 32 = y % 32 <;> simp [h, hy]
    · rw [Blit.collision_plot, hc, hp, rowHits_next x row k (by omega)]
      simp [Bool.or_assoc]

/-- A row flips the pixels that its set bits fall on. -/
theorem Blit.pixel_drawRow (b : Blit) (x y px py : Nat) (row : Byte) :
    (b.drawRow x y row).fb.pixel px py =
      (b.fb.pixel px py ^^ (decide (py % 32 = y % 32) && rowHits x row 8 px)) :=
  (b.foldl_plot x y row 8 (by decide)).1 px py

/-- A row collides where a set bit falls on a pixel that was set before the row. -/
theorem Blit.collision_drawRow (b : Blit) (x y : Nat) (row : Byte) :
    (b.drawRow x y row).collision =
      (b.collision || (List.range 8).any fun col => spriteBit row col && b.fb.pixel (x + col) y) :=
  (b.foldl_plot x y row 8 (by decide)).2

/-- At most 32 rows: the later rows of a sprite do not fall on its first row. -/
theorem spriteHits_later (m : Memory) (x n y a px py : Nat) (hn : n < 32) (hy : py % 32 = y % 32) :
    spriteHits m x n (y + 1) a px py = false := by
  simp only [spriteHits, List.any_eq_false, List.mem_range, Bool.and_eq_true, decide_eq_true_eq, not_and]
  intro row hr h
  omega

/-- A sprite of at most 32 rows flips exactly the pixels that its set bits fall on. -/
theorem Blit.pixel_drawRows (m : Memory) (x n y a : Nat) (b : Blit) (hn : n ≤ 32) (px py : Nat) :
    (Blit.drawRows m x n y a b).fb.pixel px py = (b.fb.pixel px py ^^ spriteHits m x n y a px py) := by
  induction n generalizing y a b with
  | zero => simp [Blit.drawRows, spriteHits]
  | succ n ih =>
    rw [Blit.drawRows, ih _ _ _ (by omega), Blit.pixel_drawRow, spriteHits_succ]
    by_cases hy : py % 32 = y % 32
    · simp [hy, spriteHits_later m x n y (a + 1) px py (by omega) hy]
    · simp [hy]

/-- A sprite of at most 32 rows collides exactly where a set bit falls on a pixel that was set before the draw. -/
theorem Blit.collision_drawRows (m : Memory) (x n y a : Nat) (b : Blit) (hn : n ≤ 32) :
    (Blit.drawRows m x n y a b).collision =
      (b.collision || (List.range n).any fun row => (List.range 8).any fun col =>
        spriteBit (Memory.read m (a + row)) col && b.fb.pixel (x + col) (y + row)) := by
  induction n generalizing y a b with
  | zero => simp [Blit.drawRows]
  | succ n ih =>
    have hlater : ∀ row, row < n → ∀ col, (b.drawRow x y (Memory.read m a)).fb.pixel (x + col) (y + (row + 1)) =
        b.fb.pixel (x + col) (y + (row + 1)) := by
      intro row hr col
      have hne : ¬ (y + (row + 1)) % 32 = y % 32 := by omega
      simp [Blit.pixel_drawRow, hne]
    rw [Blit.drawRows, ih _ _ _ (by omega), Blit.collision_drawRow, List.range_succ_eq_map (n := n), List.any_cons,
      List.any_map, Bool.or_assoc]
    congr 2
    rw [Bool.eq_iff_iff, List.any_eq_true, List.any_eq_true]
    refine exists_congr fun row => and_congr_right fun hr => ?_
    simp only [Function.comp_apply, Nat.succ_eq_add_one, Nat.add_assoc, Nat.add_comm 1,
      hlater row (List.mem_range.1 hr)]

end Sys2Proof.Machine
end

