-- ==== Sys2Proof/Laws/Encoding.lean ====
section
/-! SUPPORT. The fields of a packed word, and the word of its bytes. -/

namespace Sys2Proof

theorem fieldFamily_packNNN (f : BitVec 4) (a : Addr) : fieldFamily (packNNN f a) = f :=
  BitVec.extractLsb'_append_eq_left

theorem fieldFamily_packXKK (f : BitVec 4) (x : Reg) (k : Byte) : fieldFamily (packXKK f x k) = f :=
  BitVec.extractLsb'_append_eq_left

theorem fieldFamily_packXYN (f : BitVec 4) (x y : Reg) (n : BitVec 4) : fieldFamily (packXYN f x y n) = f :=
  BitVec.extractLsb'_append_eq_left

/-- The masks of R92 keep the family nibble and clear the fields. -/
theorem packNNN_and (f : BitVec 4) (a : Addr) : packNNN f a &&& 0xF000#16 = f ++ 0#12 := by
  rw [show 0xF000#16 = (0xF#4 ++ 0x000#12) from rfl, packNNN, BitVec.and_append, BitVec.and_zero]
  exact congrArg (· ++ 0#12) BitVec.and_allOnes

theorem packXKK_and (f : BitVec 4) (x : Reg) (k : Byte) : packXKK f x k &&& 0xF000#16 = f ++ 0#12 :=
  packNNN_and f (regBits x ++ k)

theorem packXYN_and (f : BitVec 4) (x y : Reg) (n : BitVec 4) : packXYN f x y n &&& 0xF000#16 = f ++ 0#12 :=
  packNNN_and f (regBits x ++ (regBits y ++ n))

/-- 0xF0FF keeps the low byte too. -/
theorem packXKK_and_byte (f : BitVec 4) (x : Reg) (k : Byte) :
    packXKK f x k &&& 0xF0FF#16 = f ++ (0#4 ++ k) := by
  rw [show 0xF0FF#16 = (0xF#4 ++ (0x0#4 ++ 0xFF#8)) from rfl, packXKK, BitVec.and_append, BitVec.and_append,
    BitVec.and_zero, show k &&& 0xFF#8 = k from BitVec.and_allOnes]
  exact congrArg (· ++ (0#4 ++ k)) BitVec.and_allOnes

/-- 0xF00F keeps the low nibble too. -/
theorem packXYN_and_nibble (f : BitVec 4) (x y : Reg) (n : BitVec 4) :
    packXYN f x y n &&& 0xF00F#16 = f ++ (0#4 ++ (0#4 ++ n)) := by
  rw [show 0xF00F#16 = (0xF#4 ++ (0x0#4 ++ (0x0#4 ++ 0xF#4))) from rfl, packXYN, BitVec.and_append, BitVec.and_append,
    BitVec.and_append, BitVec.and_zero, BitVec.and_zero, show n &&& 0xF#4 = n from BitVec.and_allOnes]
  exact congrArg (· ++ (0#4 ++ (0#4 ++ n))) BitVec.and_allOnes

theorem fieldNNN_packNNN (f : BitVec 4) (a : Addr) : fieldNNN (packNNN f a) = a :=
  BitVec.extractLsb'_append_eq_right

/-- A part of the low 12 bits of a packed word is that part of its 12-bit field. -/
theorem extract_packNNN (f : BitVec 4) (a : Addr) (start len : Nat) (h : start + len ≤ 12) :
    (packNNN f a).extractLsb' start len = a.extractLsb' start len :=
  BitVec.extractLsb'_append_eq_of_add_le h

theorem fieldX_packXKK (f : BitVec 4) (x : Reg) (k : Byte) : fieldX (packXKK f x k) = x :=
  congrArg BitVec.toFin <|
    (extract_packNNN f (regBits x ++ k) 8 4 (by decide)).trans BitVec.extractLsb'_append_eq_left

theorem fieldKK_packXKK (f : BitVec 4) (x : Reg) (k : Byte) : fieldKK (packXKK f x k) = k :=
  (extract_packNNN f (regBits x ++ k) 0 8 (by decide)).trans BitVec.extractLsb'_append_eq_right

theorem fieldX_packXYN (f : BitVec 4) (x y : Reg) (n : BitVec 4) : fieldX (packXYN f x y n) = x :=
  fieldX_packXKK f x (regBits y ++ n)

theorem fieldY_packXYN (f : BitVec 4) (x y : Reg) (n : BitVec 4) : fieldY (packXYN f x y n) = y :=
  congrArg BitVec.toFin <|
    ((extract_packNNN f (regBits x ++ (regBits y ++ n)) 4 4 (by decide)).trans
      (BitVec.extractLsb'_append_eq_of_add_le (xhi := regBits x) (xlo := regBits y ++ n) (by decide))).trans
      BitVec.extractLsb'_append_eq_left

theorem fieldN_packXYN (f : BitVec 4) (x y : Reg) (n : BitVec 4) : fieldN (packXYN f x y n) = n.toNat :=
  congrArg BitVec.toNat <|
    ((extract_packNNN f (regBits x ++ (regBits y ++ n)) 0 4 (by decide)).trans
      (BitVec.extractLsb'_append_eq_of_add_le (xhi := regBits x) (xlo := regBits y ++ n) (by decide))).trans
      BitVec.extractLsb'_append_eq_right

/-- A word's two bytes make the word again. -/
theorem wordOfBytes_bytes (op : Word) : wordOfBytes (op.extractLsb' 8 8) (op.extractLsb' 0 8) = op := by
  apply BitVec.eq_of_getLsbD_eq
  intro i hi
  simp only [wordOfBytes, BitVec.getLsbD_append, BitVec.getLsbD_extractLsb']
  by_cases h : i < 8
  · simp [h]
  · have h1 : i - 8 < 8 := by omega
    have h2 : 8 + (i - 8) = i := by omega
    simp [h, h1, h2]

end Sys2Proof
end

