-- ==== Sys2Proof/Laws/Step.lean ====
section
/-! SUPPORT. Everything a cycle can do, said once. -/

namespace Sys2Proof.Machine

/-- A word is fetched exactly when both its bytes exist. -/
theorem State.fetch_eq_some (s : State) (h : s.pc.toNat ≤ 0x0FFE) :
    s.fetch = some (wordOfBytes (s.readByte s.pc.toNat) (s.readByte (s.pc.toNat + 1))) :=
  if_pos (show s.pc.toNat + 2 ≤ 4096 by omega)

theorem State.fetch_eq_none (s : State) (h : 0x0FFF ≤ s.pc.toNat) : s.fetch = none :=
  if_neg (show ¬ s.pc.toNat + 2 ≤ 4096 by omega)

/-- What decoding a word can answer: a row's instruction, or that the word is unknown. -/
theorem decodeWord_cases (op : Word) :
    (∃ r ∈ opcodeTable, r.key = dispatchKey op ∧ decodeWord op = .ok (r.build op)) ∨
    decodeWord op = .error (.unknownOpcode op) := by
  unfold decodeWord
  split
  · rename_i r h
    exact .inl ⟨r, List.mem_of_find?_eq_some h, by simpa using List.find?_some h, rfl⟩
  · exact .inr rfl

/-- The four things a cycle can do, in the order of 60_exceptions.md R322. -/
theorem cycle_cases (s : State) :
    (∃ c, s.status = .halted c ∧ cycle s = .next s) ∨
    (s.status = .running ∧ 0x0FFF ≤ s.pc.toNat ∧ cycle s = .next (s.raiseHalt .outOfBoundsFetch)) ∨
    (∃ op, s.status = .running ∧ s.pc.toNat ≤ 0x0FFE ∧ s.fetch = some op ∧
      decodeWord op = .error (.unknownOpcode op) ∧ cycle s = .next s.advancePc.countUnknown) ∨
    (∃ op i, s.status = .running ∧ s.pc.toNat ≤ 0x0FFE ∧ s.fetch = some op ∧
      decodeWord op = .ok i ∧ cycle s = exec i s.advancePc) := by
  cases hs : s.status with
  | halted c => exact .inl ⟨c, rfl, by simp [cycle, hs]⟩
  | running =>
    refine .inr ?_
    by_cases hp : s.pc.toNat ≤ 0x0FFE
    · refine .inr ?_
      have hf := s.fetch_eq_some hp
      generalize wordOfBytes (s.readByte s.pc.toNat) (s.readByte (s.pc.toNat + 1)) = op at hf
      rcases decodeWord_cases op with ⟨r, -, -, h⟩ | h
      · exact .inr ⟨op, _, rfl, hp, hf, h, by simp [cycle, hs, hf, State.runWord, h]⟩
      · exact .inl ⟨op, rfl, hp, hf, h, by simp [cycle, hs, hf, State.runWord, h]⟩
    · have hp' : 0x0FFF ≤ s.pc.toNat := by omega
      exact .inl ⟨rfl, hp', by simp [cycle, hs, s.fetch_eq_none hp']⟩

/-- The advanced pc, where the fetch did not fail. -/
theorem State.advancePc_pc_toNat (s : State) (h : s.pc.toNat ≤ 0x0FFE) : s.advancePc.pc.toNat = s.pc.toNat + 2 := by
  rw [State.advancePc_pc, BitVec.toNat_add, BitVec.toNat_ofNat]
  omega

end Sys2Proof.Machine
end

