-- ==== Sys2Proof/Laws/Frame.lean ====
section
/-! SUPPORT. The frame of each update, said once, and that a checked access completes or halts. -/

namespace Sys2Proof.Machine

/-- A frame that lets more change holds too. -/
theorem Frame.mono {parts parts' : List Part} {regs regs' : List Reg} {s t : State} (h : Frame parts regs s t)
    (hp : ∀ p ∈ parts, p ∈ parts') (hr : ∀ r ∈ regs, r ∈ regs') : Frame parts' regs' s t where
  regs := fun r hn => h.regs r fun hm => hn (hr r hm)
  index := fun hn => h.index fun hm => hn (hp _ hm)
  pc := fun hn => h.pc fun hm => hn (hp _ hm)
  stack := fun hn => h.stack fun hm => hn (hp _ hm)
  delay := fun hn => h.delay fun hm => hn (hp _ hm)
  sound := fun hn => h.sound fun hm => hn (hp _ hm)
  pixels := fun hn => h.pixels fun hm => hn (hp _ hm)
  redraw := fun hn => h.redraw fun hm => hn (hp _ hm)
  count := fun hn => h.count fun hm => hn (hp _ hm)
  status := fun hn => h.status fun hm => hn (hp _ hm)
  memory := fun hn => h.memory fun hm => hn (hp _ hm)
  host := h.host

theorem Frame.of_setReg (s : State) (x : Reg) (w : Byte) : Frame [] [x] s (s.setReg x w) := by
  constructor <;> simp [KeepsRegs, KeepsMemory, KeepsHost, State.readByte]
  exact fun r h1 h2 => absurd h2 h1

theorem Frame.of_setResultAndFlag (s : State) (x : Reg) (w : Byte) (b : Bool) :
    Frame [] [x, 15] s (s.setResultAndFlag x w b) := by
  constructor <;> simp [KeepsRegs, KeepsMemory, KeepsHost, State.readByte, State.reg_setResultAndFlag]
  exact fun r h1 h2 => by simp [h1, h2]

theorem Frame.of_setPc (s : State) (w : Word) : Frame [.pc] [] s (s.setPc w) := by
  constructor <;> simp [KeepsRegs, KeepsMemory, KeepsHost]

theorem Frame.of_skipIf (s : State) (b : Bool) : Frame [.pc] [] s (s.skipIf b) := by
  rw [State.skipIf_eq]
  exact Frame.of_setPc s _

theorem Frame.of_setI (s : State) (w : Word) : Frame [.index] [] s (s.setI w) := by
  constructor <;> simp [KeepsRegs, KeepsMemory, KeepsHost]

theorem Frame.of_setDT (s : State) (w : Byte) : Frame [.delay] [] s (s.setDT w) := by
  constructor <;> simp [KeepsRegs, KeepsMemory, KeepsHost]

theorem Frame.of_setST (s : State) (w : Byte) : Frame [.sound] [] s (s.setST w) := by
  constructor <;> simp [KeepsRegs, KeepsMemory, KeepsHost]

theorem Frame.of_setStack_setPc (s : State) (st : List Word) (w : Word) :
    Frame [.pc, .stack] [] s ((s.setStack st).setPc w) := by
  constructor <;> simp [KeepsRegs, KeepsMemory, KeepsHost]

theorem Frame.of_storeBytes (s : State) (a : Nat) (ws : List Byte) : Frame [.memory] [] s (s.storeBytes a ws) := by
  constructor <;> simp [KeepsRegs, KeepsMemory, KeepsHost]

/-- A store changes no byte outside the bytes stored. -/
theorem KeepsMemoryOutside.of_storeBytes (s : State) (a : Nat) (ws : List Byte) :
    KeepsMemoryOutside a ws.length s (s.storeBytes a ws) := by
  intro b hb
  rw [State.readByte_storeBytes, if_neg (by omega)]

theorem Frame.of_loadRegsUpTo (s : State) (x : Reg) (a : Nat) :
    Frame [] ((List.finRange 16).filter (· ≤ x)) s (s.loadRegsUpTo x a) := by
  constructor <;> simp [KeepsRegs, KeepsMemory, KeepsHost, State.reg_loadRegsUpTo, State.readByte]
  exact fun r h1 h2 => absurd h2 (Fin.not_le.2 h1)

/-- A halt changes the status and nothing else (60_exceptions.md R323). -/
theorem HaltsWith.of_raiseHalt (s : State) (c : HaltCause) : HaltsWith c s (s.raiseHalt c) := by
  refine ⟨rfl, ?_⟩
  constructor <;> simp [KeepsRegs, KeepsMemory, KeepsHost]

theorem State.accessOrHalt_inBounds (s : State) (count : Nat) (done : State)
    (h : count = 0 ∨ s.I.toNat + count ≤ 4096) : s.accessOrHalt count done = done := by
  rw [State.accessOrHalt, s.badAddress_eq_none count h]

theorem State.accessOrHalt_outOfBounds (s : State) (count : Nat) (done : State) (h0 : 0 < count)
    (h : 4096 < s.I.toNat + count) :
    s.accessOrHalt count done = s.raiseHalt (.outOfBoundsAccess (max s.I.toNat 4096)) := by
  rw [State.accessOrHalt, s.badAddress_eq_some count h0 h]

end Sys2Proof.Machine
end

