-- ==== Sys2Proof/Laws/PerInstr.lean ====
section
/-! SUPPORT. Per-instruction lemmas. Family DispatchKey: the encoding of every instruction has the dispatch key of its
row of the handler table (spec 30_encoding.md R92, R93). -/

namespace Sys2Proof.Laws.DispatchKey

/-- The key of an instruction's row (R93). -/
def rowKey : Instr → Word
  | .cls => 0x00E0#16
  | .ret => 0x00EE#16
  | .jp _ => 0x1000#16
  | .call _ => 0x2000#16
  | .seByte _ _ => 0x3000#16
  | .sneByte _ _ => 0x4000#16
  | .seReg _ _ => 0x5000#16
  | .ldByte _ _ => 0x6000#16
  | .addByte _ _ => 0x7000#16
  | .ldReg _ _ => 0x8000#16
  | .orReg _ _ => 0x8001#16
  | .andReg _ _ => 0x8002#16
  | .xorReg _ _ => 0x8003#16
  | .addReg _ _ => 0x8004#16
  | .subReg _ _ => 0x8005#16
  | .shr _ _ => 0x8006#16
  | .subnReg _ _ => 0x8007#16
  | .shl _ _ => 0x800E#16
  | .sneReg _ _ => 0x9000#16
  | .ldI _ => 0xA000#16
  | .jpV0 _ => 0xB000#16
  | .rnd _ _ => 0xC000#16
  | .drw _ _ _ => 0xD000#16
  | .skp _ => 0xE09E#16
  | .sknp _ => 0xE0A1#16
  | .ldVxDT _ => 0xF007#16
  | .ldVxK _ => 0xF00A#16
  | .ldDTVx _ => 0xF015#16
  | .ldSTVx _ => 0xF018#16
  | .addI _ => 0xF01E#16
  | .ldF _ => 0xF029#16
  | .ldB _ => 0xF033#16
  | .ldMemVx _ => 0xF055#16
  | .ldVxMem _ => 0xF065#16

/-- The encoding dispatches to the instruction's own row. -/
def Statement (i : Instr) : Prop := dispatchKey (encode i) = rowKey i

/-- The mask depends on the family nibble alone (R92). -/
theorem mask_of_family (op : Word) (f : BitVec 4) (h : fieldFamily op = f) : dispatchMask op = dispatchMask (f ++ 0#12) := by
  have h0 : fieldFamily (f ++ 0#12 : Word) = f := BitVec.extractLsb'_append_eq_left
  unfold dispatchMask
  rw [h, h0]

theorem key_packNNN (f : BitVec 4) (a : Addr) (h : dispatchMask (f ++ 0#12) = 0xF000#16) :
    dispatchKey (packNNN f a) = f ++ 0#12 := by
  rw [dispatchKey, mask_of_family _ f (fieldFamily_packNNN f a), h, packNNN_and]

theorem key_packXKK (f : BitVec 4) (x : Reg) (k : Byte) (h : dispatchMask (f ++ 0#12) = 0xF000#16) :
    dispatchKey (packXKK f x k) = f ++ 0#12 :=
  key_packNNN f (regBits x ++ k) h

theorem key_packXYN (f : BitVec 4) (x y : Reg) (n : BitVec 4) (h : dispatchMask (f ++ 0#12) = 0xF000#16) :
    dispatchKey (packXYN f x y n) = f ++ 0#12 :=
  key_packNNN f (regBits x ++ (regBits y ++ n)) h

theorem key_packXYN_nibble (f : BitVec 4) (x y : Reg) (n : BitVec 4) (h : dispatchMask (f ++ 0#12) = 0xF00F#16) :
    dispatchKey (packXYN f x y n) = f ++ (0#4 ++ (0#4 ++ n)) := by
  rw [dispatchKey, mask_of_family _ f (fieldFamily_packXYN f x y n), h, packXYN_and_nibble]

theorem key_packXKK_byte (f : BitVec 4) (x : Reg) (k : Byte) (h : dispatchMask (f ++ 0#12) = 0xF0FF#16) :
    dispatchKey (packXKK f x k) = f ++ (0#4 ++ k) := by
  rw [dispatchKey, mask_of_family _ f (fieldFamily_packXKK f x k), h, packXKK_and_byte]

theorem cls : Statement .cls := rfl
theorem ret : Statement .ret := rfl
theorem jp (nnn : Addr) : Statement (.jp nnn) := key_packNNN _ nnn rfl
theorem call (nnn : Addr) : Statement (.call nnn) := key_packNNN _ nnn rfl
theorem seByte (x : Reg) (kk : Byte) : Statement (.seByte x kk) := key_packXKK _ x kk rfl
theorem sneByte (x : Reg) (kk : Byte) : Statement (.sneByte x kk) := key_packXKK _ x kk rfl
theorem seReg (x y : Reg) : Statement (.seReg x y) := key_packXYN_nibble _ x y _ rfl
theorem ldByte (x : Reg) (kk : Byte) : Statement (.ldByte x kk) := key_packXKK _ x kk rfl
theorem addByte (x : Reg) (kk : Byte) : Statement (.addByte x kk) := key_packXKK _ x kk rfl
theorem ldReg (x y : Reg) : Statement (.ldReg x y) := key_packXYN_nibble _ x y _ rfl
theorem orReg (x y : Reg) : Statement (.orReg x y) := key_packXYN_nibble _ x y _ rfl
theorem andReg (x y : Reg) : Statement (.andReg x y) := key_packXYN_nibble _ x y _ rfl
theorem xorReg (x y : Reg) : Statement (.xorReg x y) := key_packXYN_nibble _ x y _ rfl
theorem addReg (x y : Reg) : Statement (.addReg x y) := key_packXYN_nibble _ x y _ rfl
theorem subReg (x y : Reg) : Statement (.subReg x y) := key_packXYN_nibble _ x y _ rfl
theorem shr (x y : Reg) : Statement (.shr x y) := key_packXYN_nibble _ x y _ rfl
theorem subnReg (x y : Reg) : Statement (.subnReg x y) := key_packXYN_nibble _ x y _ rfl
theorem shl (x y : Reg) : Statement (.shl x y) := key_packXYN_nibble _ x y _ rfl
theorem sneReg (x y : Reg) : Statement (.sneReg x y) := key_packXYN_nibble _ x y _ rfl
theorem ldI (nnn : Addr) : Statement (.ldI nnn) := key_packNNN _ nnn rfl
theorem jpV0 (nnn : Addr) : Statement (.jpV0 nnn) := key_packNNN _ nnn rfl
theorem rnd (x : Reg) (kk : Byte) : Statement (.rnd x kk) := key_packXKK _ x kk rfl
theorem drw (x y : Reg) (n : Nat) : Statement (.drw x y n) := key_packXYN _ x y _ rfl
theorem skp (x : Reg) : Statement (.skp x) := key_packXKK_byte _ x _ rfl
theorem sknp (x : Reg) : Statement (.sknp x) := key_packXKK_byte _ x _ rfl
theorem ldVxDT (x : Reg) : Statement (.ldVxDT x) := key_packXKK_byte _ x _ rfl
theorem ldVxK (x : Reg) : Statement (.ldVxK x) := key_packXKK_byte _ x _ rfl
theorem ldDTVx (x : Reg) : Statement (.ldDTVx x) := key_packXKK_byte _ x _ rfl
theorem ldSTVx (x : Reg) : Statement (.ldSTVx x) := key_packXKK_byte _ x _ rfl
theorem addI (x : Reg) : Statement (.addI x) := key_packXKK_byte _ x _ rfl
theorem ldF (x : Reg) : Statement (.ldF x) := key_packXKK_byte _ x _ rfl
theorem ldB (x : Reg) : Statement (.ldB x) := key_packXKK_byte _ x _ rfl
theorem ldMemVx (x : Reg) : Statement (.ldMemVx x) := key_packXKK_byte _ x _ rfl
theorem ldVxMem (x : Reg) : Statement (.ldVxMem x) := key_packXKK_byte _ x _ rfl

end Sys2Proof.Laws.DispatchKey
end

