-- ==== Sys2Proof/Machine/Assembly.lean ====
section
/-! DEFINITION. The assembler's spelling of an instruction (spec 30_encoding.md R99): the mnemonic column of R93 with its
operands, registers as V0 to VF, numbers in decimal. It is syntax only and no part of the machine (D34): nothing in the
step uses it. There are no pseudo-instructions (R100). -/

namespace Sys2Proof.Machine

/-- A register's name: V and one upper-case hexadecimal digit (R99). -/
def regName (r : Reg) : String := "V" ++ (["0", "1", "2", "3", "4", "5", "6", "7", "8", "9", "A", "B", "C", "D", "E", "F"].getD r.val "")

/-- A mnemonic and its operands, separated by commas, the destination first (R99). -/
def spell (mnemonic : String) (operands : List String) : String := mnemonic ++ " " ++ String.intercalate ", " operands

/-- A number in decimal (R99). -/
def number (n : Nat) : String := Nat.repr n

/-- The spelling of an instruction (R99, R93). SHR and SHL are written with their ignored y when it is not 0, the value
that the assembler encodes when y is omitted (R99; D34). -/
def instrText : Instr → String
  | .cls => "CLS"
  | .ret => "RET"
  | .jp nnn => spell "JP" [number nnn.toNat]
  | .call nnn => spell "CALL" [number nnn.toNat]
  | .seByte x kk => spell "SE" [regName x, number kk.toNat]
  | .sneByte x kk => spell "SNE" [regName x, number kk.toNat]
  | .seReg x y => spell "SE" [regName x, regName y]
  | .ldByte x kk => spell "LD" [regName x, number kk.toNat]
  | .addByte x kk => spell "ADD" [regName x, number kk.toNat]
  | .ldReg x y => spell "LD" [regName x, regName y]
  | .orReg x y => spell "OR" [regName x, regName y]
  | .andReg x y => spell "AND" [regName x, regName y]
  | .xorReg x y => spell "XOR" [regName x, regName y]
  | .addReg x y => spell "ADD" [regName x, regName y]
  | .subReg x y => spell "SUB" [regName x, regName y]
  | .shr x y => spell "SHR" (if y = 0 then [regName x] else [regName x, regName y])
  | .subnReg x y => spell "SUBN" [regName x, regName y]
  | .shl x y => spell "SHL" (if y = 0 then [regName x] else [regName x, regName y])
  | .sneReg x y => spell "SNE" [regName x, regName y]
  | .ldI nnn => spell "LD" ["I", number nnn.toNat]
  | .jpV0 nnn => spell "JP" ["V0", number nnn.toNat]
  | .rnd x kk => spell "RND" [regName x, number kk.toNat]
  | .drw x y n => spell "DRW" [regName x, regName y, number n]
  | .skp x => spell "SKP" [regName x]
  | .sknp x => spell "SKNP" [regName x]
  | .ldVxDT x => spell "LD" [regName x, "DT"]
  | .ldVxK x => spell "LD" [regName x, "K"]
  | .ldDTVx x => spell "LD" ["DT", regName x]
  | .ldSTVx x => spell "LD" ["ST", regName x]
  | .addI x => spell "ADD" ["I", regName x]
  | .ldF x => spell "LD" ["F", regName x]
  | .ldB x => spell "LD" ["B", regName x]
  | .ldMemVx x => spell "LD" ["[I]", regName x]
  | .ldVxMem x => spell "LD" [regName x, "[I]"]

end Sys2Proof.Machine
end

