-- ==== Sys2Proof/Tests/Slice0.lean ====
section
/-! SUPPORT. Tests: the well-formedness check, a word of every instruction written out from its pattern in
spec/30_encoding.md R93, one step of every instruction with the result that spec/95_test_vectors.md states (its id in
each test's comment), the two places the host's probes use, and for every statement of
Certificates/Slice0/Obligations.lean with hypotheses a witness that meets them. -/

namespace Sys2Proof.Tests

open Sys2Proof.Machine

/-! ## WellFormed: the one check refuses its ill-formed terms -/

theorem test_wf_refuses_sixteen_rows : (Instr.drw 0 1 16).wf = false := by decide
theorem test_wf_accepts_fifteen_rows : (Instr.drw 0 1 15).wf = true := by decide

/-! ## Decoding: one word of every row, nibble by nibble (30_encoding.md R90, R93) -/

theorem test_decode_cls : decodeWord 0b0000_0000_1110_0000#16 = .ok .cls := by decide
theorem test_decode_ret : decodeWord 0b0000_0000_1110_1110#16 = .ok .ret := by decide
theorem test_decode_jp : decodeWord 0b0001_1010_1011_1100#16 = .ok (.jp 0xABC#12) := by decide
theorem test_decode_call : decodeWord 0b0010_0011_0000_0001#16 = .ok (.call 0x301#12) := by decide
theorem test_decode_seByte : decodeWord 0b0011_1010_0100_0010#16 = .ok (.seByte 10 0x42#8) := by decide
theorem test_decode_sneByte : decodeWord 0b0100_0101_1000_0001#16 = .ok (.sneByte 5 0x81#8) := by decide
theorem test_decode_seReg : decodeWord 0b0101_0001_0010_0000#16 = .ok (.seReg 1 2) := by decide
theorem test_decode_ldByte : decodeWord 0b0110_1111_0000_0101#16 = .ok (.ldByte 15 0x05#8) := by decide
theorem test_decode_addByte : decodeWord 0b0111_0000_1111_1110#16 = .ok (.addByte 0 0xFE#8) := by decide
theorem test_decode_ldReg : decodeWord 0b1000_0001_0010_0000#16 = .ok (.ldReg 1 2) := by decide
theorem test_decode_orReg : decodeWord 0b1000_0011_0100_0001#16 = .ok (.orReg 3 4) := by decide
theorem test_decode_andReg : decodeWord 0b1000_0101_0110_0010#16 = .ok (.andReg 5 6) := by decide
theorem test_decode_xorReg : decodeWord 0b1000_0111_1000_0011#16 = .ok (.xorReg 7 8) := by decide
theorem test_decode_addReg : decodeWord 0b1000_1001_1010_0100#16 = .ok (.addReg 9 10) := by decide
theorem test_decode_subReg : decodeWord 0b1000_1011_1100_0101#16 = .ok (.subReg 11 12) := by decide
theorem test_decode_shr : decodeWord 0b1000_1101_1110_0110#16 = .ok (.shr 13 14) := by decide
theorem test_decode_subnReg : decodeWord 0b1000_1111_0000_0111#16 = .ok (.subnReg 15 0) := by decide
theorem test_decode_shl : decodeWord 0b1000_0010_0001_1110#16 = .ok (.shl 2 1) := by decide
theorem test_decode_sneReg : decodeWord 0b1001_0100_0011_0000#16 = .ok (.sneReg 4 3) := by decide
theorem test_decode_ldI : decodeWord 0b1010_0010_1111_0000#16 = .ok (.ldI 0x2F0#12) := by decide
theorem test_decode_jpV0 : decodeWord 0b1011_1111_0000_1111#16 = .ok (.jpV0 0xF0F#12) := by decide
theorem test_decode_rnd : decodeWord 0b1100_0011_0000_1111#16 = .ok (.rnd 3 0x0F#8) := by decide
theorem test_decode_drw : decodeWord 0b1101_0110_0111_1000#16 = .ok (.drw 6 7 8) := by decide
theorem test_decode_skp : decodeWord 0b1110_0101_1001_1110#16 = .ok (.skp 5) := by decide
theorem test_decode_sknp : decodeWord 0b1110_1010_1010_0001#16 = .ok (.sknp 10) := by decide
theorem test_decode_ldVxDT : decodeWord 0b1111_0011_0000_0111#16 = .ok (.ldVxDT 3) := by decide
theorem test_decode_ldVxK : decodeWord 0b1111_0100_0000_1010#16 = .ok (.ldVxK 4) := by decide
theorem test_decode_ldDTVx : decodeWord 0b1111_0101_0001_0101#16 = .ok (.ldDTVx 5) := by decide
theorem test_decode_ldSTVx : decodeWord 0b1111_0110_0001_1000#16 = .ok (.ldSTVx 6) := by decide
theorem test_decode_addI : decodeWord 0b1111_0111_0001_1110#16 = .ok (.addI 7) := by decide
theorem test_decode_ldF : decodeWord 0b1111_1000_0010_1001#16 = .ok (.ldF 8) := by decide
theorem test_decode_ldB : decodeWord 0b1111_1001_0011_0011#16 = .ok (.ldB 9) := by decide
theorem test_decode_ldMemVx : decodeWord 0b1111_1010_0101_0101#16 = .ok (.ldMemVx 10) := by decide
theorem test_decode_ldVxMem : decodeWord 0b1111_1011_0110_0101#16 = .ok (.ldVxMem 11) := by decide

/-- L2-6 to L2-15 and L1-7: one unknown word of every family that has unknown words (R94, R95). -/
theorem test_unknown_words :
    ([0x0123, 0x00E1, 0x01E0, 0x01EE, 0x5001, 0x9121, 0x8128, 0x812F, 0xE09F, 0xF0FF, 0xF075].map (decodeTableWord 16)).all
      (· == none) = true := by decide

/-- Too few bytes for an instruction (R98). -/
theorem test_decode_truncated : decode [0x60#8] = .error .truncated := by decide

/-- The table's word through the host's probe, high byte first (20_memory.md R68). -/
theorem test_decodeTableWord : decodeTableWord 16 0xD015 = some (.drw 0 1 5) := by decide

/-- The first step after reset runs the placed word. -/
theorem test_withFetchWord :
    (State.reset.withFetchWord 16 0xD015).fetch = some 0xD015#16 ∧ (State.reset.withFetchWord 16 0xD015).pc = 0x200#16 := by
  decide

/-- L3 P1 and P6: the spellings of 6005 and F30A, and of 81F6 with its ignored y (R99). -/
theorem test_instrText :
    [instrText (.ldByte 0 5#8), instrText (.ldVxK 3), instrText (.shr 1 15)] = ["LD V0, 5", "LD V3, K", "SHR V1, VF"] := by
  decide

/-! ## One step of each instruction (95_test_vectors.md L1, L2) -/

/-- The reset state with no key down and the random byte 0, as the vectors assume. -/
def quiet : State := State.reset.setInputs 0#16 0#8

/-- That state with some registers set. -/
def regs (l : List (Reg × Byte)) : State := l.foldl (fun s p => s.setReg p.1 p.2) quiet

/-- The state after one cycle on the word `w` placed at pc. -/
def after (w : Nat) (s : State) : State :=
  match cycle (s.withFetchWord 16 w) with
  | .next t => t
  | .fault _ => s
  | .refused _ => s

/-- L2-20 -/
theorem test_jp : (after 0x1ABC quiet).pc = 0xABC#16 := by decide
/-- L2-22 -/
theorem test_call : let t := after 0x2300 { quiet with pc := 0x204#16 }; t.stack = [0x206#16] ∧ t.pc = 0x300#16 := by
  decide
/-- L2-24 -/
theorem test_call_overflow :
    let t := after 0x2300 (quiet.setStack (List.replicate 16 0x202#16))
    t.status = .halted .stackOverflow ∧ t.pc = 0x202#16 ∧ t.sp = 16 := by decide
/-- L2-25 -/
theorem test_ret :
    let t := after 0x00EE { quiet with pc := 0x300#16, stack := [0x204#16] }
    t.pc = 0x204#16 ∧ t.stack = [] := by decide
/-- L2-26 -/
theorem test_ret_underflow :
    let t := after 0x00EE { quiet with pc := 0x300#16 }
    t.status = .halted .stackUnderflow ∧ t.pc = 0x302#16 := by decide
/-- L2-27 and L2-29 -/
theorem test_jpV0 : (after 0xB300 (regs [(0, 0x10), (1, 0x20)])).pc = 0x310#16 := by decide
/-- L2-28 -/
theorem test_jpV0_top : (after 0xBFFF (regs [(0, 0xFF)])).pc = 0x10FE#16 := by decide
/-- L2-30, L2-31 -/
theorem test_seByte :
    (after 0x3A42 (regs [(10, 0x42)])).pc = 0x204#16 ∧ (after 0x3A42 (regs [(10, 0x41)])).pc = 0x202#16 := by decide
/-- L2-32, L2-33 -/
theorem test_sneByte :
    (after 0x4A42 (regs [(10, 0x42)])).pc = 0x202#16 ∧ (after 0x4A42 (regs [(10, 0x41)])).pc = 0x204#16 := by decide
/-- L2-34, L2-35 -/
theorem test_seReg :
    (after 0x5120 (regs [(1, 7), (2, 7)])).pc = 0x204#16 ∧ (after 0x5120 (regs [(1, 7), (2, 8)])).pc = 0x202#16 := by decide
/-- L2-37, L2-38 -/
theorem test_sneReg :
    (after 0x9120 (regs [(1, 7), (2, 7)])).pc = 0x202#16 ∧ (after 0x9120 (regs [(1, 7), (2, 8)])).pc = 0x204#16 := by decide
/-- L2-40, L2-41 -/
theorem test_skp :
    (after 0xE59E { regs [(5, 0xA)] with keys := 0x0400#16 }).pc = 0x204#16 ∧
    (after 0xE59E (regs [(5, 0xA)])).pc = 0x202#16 := by decide
/-- L2-44 -/
theorem test_skp_bad_key :
    let t := after 0xE59E (regs [(5, 0x10)]); t.status = .halted (.badKeyIndex 16) ∧ t.pc = 0x202#16 := by decide
/-- L2-42, L2-43 -/
theorem test_sknp :
    (after 0xE5A1 (regs [(5, 0xA)])).pc = 0x204#16 ∧
    (after 0xE5A1 { regs [(5, 0xA)] with keys := 0x0400#16 }).pc = 0x202#16 := by decide
/-- L2-45 -/
theorem test_sknp_bad_key : (after 0xE5A1 (regs [(5, 0xFF)])).status = .halted (.badKeyIndex 255) := by decide
/-- L2-50 -/
theorem test_ldByte : (after 0x6AFF quiet).reg 10 = 0xFF := by decide
/-- L2-51 -/
theorem test_addByte : let t := after 0x7A01 (regs [(10, 0xFF), (15, 5)]); t.reg 10 = 0 ∧ t.reg 15 = 5 := by decide
/-- L2-52 -/
theorem test_addByte_vf : (after 0x7FFF (regs [(15, 2)])).reg 15 = 1 := by decide
/-- L2-53 -/
theorem test_ldReg : (after 0x8120 (regs [(2, 0x33)])).reg 1 = 0x33 := by decide
/-- L2-54 -/
theorem test_orReg : let t := after 0x8121 (regs [(1, 0xF0), (2, 0x0F), (15, 9)]); t.reg 1 = 0xFF ∧ t.reg 15 = 9 := by decide
/-- L2-55 -/
theorem test_andReg : let t := after 0x8122 (regs [(1, 0xF0), (2, 0x3C), (15, 9)]); t.reg 1 = 0x30 ∧ t.reg 15 = 9 := by decide
/-- L2-56 -/
theorem test_xorReg : let t := after 0x8123 (regs [(1, 0xFF), (2, 0x0F), (15, 9)]); t.reg 1 = 0xF0 ∧ t.reg 15 = 9 := by decide
/-- L1-10 -/
theorem test_addReg : let t := after 0x8124 (regs [(1, 0xFF), (2, 0x02)]); t.reg 1 = 1 ∧ t.reg 15 = 1 := by decide
/-- L2-59, L2-60: y = F is read before VF is written; with x = F the flag stays. -/
theorem test_addReg_vf :
    (after 0x81F4 (regs [(1, 3), (15, 0xFF)])).reg 1 = 2 ∧ (after 0x8F14 (regs [(15, 0x10), (1, 0x20)])).reg 15 = 0 := by
  decide
/-- L2-61 -/
theorem test_subReg : let t := after 0x8125 (regs [(1, 5), (2, 7)]); t.reg 1 = 0xFE ∧ t.reg 15 = 0 := by decide
/-- L2-62 -/
theorem test_subReg_equal : let t := after 0x8125 (regs [(1, 7), (2, 7)]); t.reg 1 = 0 ∧ t.reg 15 = 1 := by decide
/-- L2-65 -/
theorem test_shr : let t := after 0x8106 (regs [(1, 5)]); t.reg 1 = 2 ∧ t.reg 15 = 1 := by decide
/-- L2-67: y is ignored. -/
theorem test_shr_ignores_y : let t := after 0x81F6 (regs [(1, 0xFF)]); t.reg 1 = 0x7F ∧ t.reg 15 = 1 := by decide
/-- L2-69 -/
theorem test_subnReg : let t := after 0x8127 (regs [(1, 7), (2, 5)]); t.reg 1 = 0xFE ∧ t.reg 15 = 0 := by decide
/-- L2-72 -/
theorem test_subnReg_vf : (after 0x8F17 (regs [(15, 3), (1, 5)])).reg 15 = 1 := by decide
/-- L2-73 -/
theorem test_shl : let t := after 0x810E (regs [(1, 0x81)]); t.reg 1 = 2 ∧ t.reg 15 = 1 := by decide
/-- L2-74 -/
theorem test_shl_no_carry : let t := after 0x810E (regs [(1, 0x40)]); t.reg 1 = 0x80 ∧ t.reg 15 = 0 := by decide
/-- L2-76 -/
theorem test_rnd : (after 0xC30F { quiet with rnd := 0xAB#8 }).reg 3 = 0x0B := by decide
/-- L2-80 -/
theorem test_ldI : (after 0xA123 quiet).I = 0x123#16 := by decide
/-- L2-82 -/
theorem test_addI : let t := after 0xF31E ((regs [(3, 2), (15, 7)]).setI 0xFFFF#16); t.I = 1#16 ∧ t.reg 15 = 7 := by decide
/-- L2-84 -/
theorem test_ldF : (after 0xF329 (regs [(3, 0x1F)])).I = 0x4B#16 := by decide
/-- L2-85 -/
theorem test_ldB :
    let t := after 0xF333 ((regs [(3, 157)]).setI 0x300#16)
    [t.readByte 0x300, t.readByte 0x301, t.readByte 0x302] = [1, 5, 7] ∧ t.I = 0x300#16 := by decide
/-- L2-88 -/
theorem test_ldB_out_of_bounds :
    let t := after 0xF333 ((regs [(3, 1)]).setI 0xFFE#16)
    t.status = .halted (.outOfBoundsAccess 0x1000) ∧ t.readByte 0xFFE = 0 ∧ t.readByte 0xFFF = 0 := by decide
/-- L2-90 -/
theorem test_ldMemVx :
    let t := after 0xF255 ((regs [(0, 1), (1, 2), (2, 3), (3, 4)]).setI 0x300#16)
    (List.range 4).map (fun k => t.readByte (0x300 + k)) = [1, 2, 3, 0] := by decide
/-- L2-95: the font may be overwritten, and memory stays canonical. -/
theorem test_ldMemVx_font :
    let t := after 0xF455 (regs [(0, 0xF0), (1, 2)])
    (List.range 6).map t.readByte = [0xF0, 2, 0, 0, 0, 0x20] ∧ Memory.wf t.mem := by decide
/-- L2-93 -/
theorem test_ldVxMem :
    let t := after 0xF265 (((regs [(3, 9)]).setI 0x300#16).storeBytes 0x300 [1, 2, 3, 4])
    [t.reg 0, t.reg 1, t.reg 2, t.reg 3] = [1, 2, 3, 9] ∧ t.I = 0x300#16 := by decide
/-- L2-94 -/
theorem test_ldVxMem_out_of_bounds :
    (after 0xF065 (quiet.setI 0x1000#16)).status = .halted (.outOfBoundsAccess 0x1000) := by decide
/-- L2-100 -/
theorem test_cls :
    let t := after 0x00E0 (quiet.setFb (Framebuffer.clear.flip 1 1))
    t.fb = Framebuffer.clear ∧ t.needsRedraw = true := by decide
/-- L2-103: wrap at the right and the bottom edge. -/
theorem test_drw :
    let t := after 0xD012 (((regs [(0, 62), (1, 31)]).setI 0x300#16).storeBytes 0x300 [0xFF, 0x81])
    t.fb[31] = 0xC00000000000003F#64 ∧ t.fb[0] = 0x4000000000000020#64 ∧ t.reg 15 = 0 := by decide
/-- L2-102: the erased pixel sets VF. -/
theorem test_drw_collision :
    let t := after 0xD011 ((quiet.setFb (Framebuffer.clear.flip 0 0)).setI 0x300#16 |>.storeBytes 0x300 [0x80])
    t.fb.pixel 0 0 = false ∧ t.reg 15 = 1 ∧ t.needsRedraw = true := by decide
/-- L2-110 -/
theorem test_ldVxDT : (after 0xF307 (quiet.setDT 0x3C#8)).reg 3 = 0x3C := by decide
/-- L2-111 -/
theorem test_ldDTVx : (after 0xF315 (regs [(3, 0x3C)])).DT = 0x3C := by decide
/-- L2-112 -/
theorem test_ldSTVx : let t := after 0xF318 (regs [(3, 2)]); t.ST = 2 ∧ t.soundActive = true := by decide
/-- L2-113 -/
theorem test_ldVxK : (after 0xF40A { quiet with keys := 0x0024#16 }).reg 4 = 2 := by decide
/-- L2-114 -/
theorem test_ldVxK_waits : (after 0xF40A { quiet with pc := 0x208#16 }).pc = 0x208#16 := by decide
/-- L1-7 -/
theorem test_unknown : let t := after 0x5001 quiet; t.unknownCount = 1 ∧ t.pc = 0x202#16 := by decide
/-- L1-16 and L2-116 -/
theorem test_tick : let t := ((quiet.setDT 2#8).setST 0#8).tickTimers; t.DT = 1 ∧ t.ST = 0 := by decide
/-- The end of P10: with DT = 3 after the host's two ticks, the script's turns come between the steps. -/
theorem test_script_ticks_between_steps :
    (match step ({ quiet with DT := 5#8, script := [⟨[.tickTimers, .tickTimers], 0#16, 0#8⟩] }.withFetchWord 16 0x6000) with
      | .next t => t.DT
      | .fault _ => 0
      | .refused _ => 0) = 3#8 := by decide

/-- The first step's inputs, and the host's turn after it, are the free values (10_state.md R45, R46; 40_core_cycle.md
R121): nothing fixes them. -/
theorem test_free_from_reset :
    State.reset.keys = Config.freeKeys 0 ∧ State.reset.rnd = Config.freeRnd 0 ∧
    (hostTurn State.reset).DT = (hostEffects (Config.freeOps 1) State.reset).DT ∧
    (hostTurn State.reset).keys = Config.freeKeys 1 ∧ (hostTurn State.reset).rnd = Config.freeRnd 1 :=
  ⟨rfl, rfl, rfl, rfl, rfl⟩

/-! ## Witnesses: every hypothesis of a statement can be met -/

theorem witness_DecodeOfEncodeIsTheInstruction : ∃ i : Instr, i = .drw 15 15 15 ∧ i.wf = true := ⟨_, rfl, by decide⟩

theorem witness_EncodeOfDecodeIsTheWord : decodeWord 0xFF65#16 = .ok (.ldVxMem 15) := by decide

theorem witness_EachWordSelectsAtMostOneRow :
    ∃ r ∈ opcodeTable, 0x8FFE#16 &&& r.mask = r.key := by decide

theorem witness_StepRunsTheDecodedInstruction :
    ∃ s : State, s.status = .running ∧ s.pc.toNat = 0x0FFE ∧ s.pc.toNat ≤ 0x0FFE ∧ Instr.wf (.drw 0 1 15) = true ∧
      decode [s.readByte s.pc.toNat, s.readByte (s.pc.toNat + 1)] = .ok (.drw 0 1 15, []) :=
  ⟨{ State.reset with pc := 0x0FFE#16 }.withFetchWord 16 0xD01F, by decide⟩

theorem witness_FetchReadsTheBigEndianWord : ∃ s : State, s.pc.toNat = 0x0FFD ∧ s.pc.toNat ≤ 0x0FFE :=
  ⟨{ State.reset with pc := 0x0FFD#16 }, by decide⟩

theorem witness_UnknownOpcodeIsCountedAndNothingElse :
    ∃ s : State, s.status = .running ∧ s.fetch = some 0xF0FF#16 ∧ decodeWord 0xF0FF#16 = .error (.unknownOpcode 0xF0FF#16) :=
  ⟨{ State.reset with pc := 0x0FFE#16 }.withFetchWord 16 0xF0FF, by decide⟩

theorem witness_FetchOutOfBoundsHalts : ∃ s : State, s.status = .running ∧ s.pc.toNat = 0x0FFF ∧ 0x0FFF ≤ s.pc.toNat :=
  ⟨{ State.reset with pc := 0x0FFF#16 }, by decide⟩

theorem witness_HaltedStepIsOnlyTheHostsTurn : ∃ s : State, s.status = .halted .stackUnderflow :=
  ⟨State.reset.raiseHalt .stackUnderflow, by decide⟩

theorem witness_EndOfRun_halted : ∃ s : State, s.status = .halted .stackOverflow :=
  ⟨State.reset.raiseHalt .stackOverflow, by decide⟩
theorem witness_EndOfRun_off_the_end : ∃ s : State, s.status = .running ∧ s.pc.toNat = 4096 ∧ 4096 ≤ s.pc.toNat :=
  ⟨{ State.reset with pc := 0x1000#16 }, by decide⟩
theorem witness_EndOfRun_jump_to_itself :
    ∃ s : State, s.status = .running ∧ (0xFFE#12 : Addr).toNat ≤ 0x0FFE ∧ s.pc.toNat = (0xFFE#12 : Addr).toNat ∧
      s.fetch = some (encode (.jp 0xFFE#12)) :=
  ⟨{ State.reset with pc := 0x0FFE#16 }.withFetchWord 16 0x1FFE, by decide⟩
theorem witness_EndOfRun_key_wait :
    ∃ s : State, s.status = .running ∧ s.pc.toNat ≤ 0x0FFE ∧ s.keys = 0#16 ∧ s.fetch = some (encode (.ldVxK 3)) :=
  ⟨{ quiet with pc := 0x0FFE#16 }.withFetchWord 16 0xF30A, by decide⟩

theorem witness_StoredWordIsFetchedNext :
    ∃ s : State, 1 ≤ (1 : Reg).val ∧ s.pc = s.I ∧ s.I.toNat = 4094 ∧ s.I.toNat + (1 : Reg).val < 4096 :=
  ⟨{ State.reset with pc := 0x0FFE#16, I := 0x0FFE#16 }, by decide⟩

theorem witness_HostTurn_script : ∃ s : State, s.script = [⟨[.tickTimers], 0xFFFF#16, 0xFF#8⟩] :=
  ⟨State.reset.setScript _, rfl⟩
theorem witness_HostTurn_end : ∃ s : State, s.script = [] := ⟨State.reset, rfl⟩

theorem witness_OnlyConsume_other_operation :
    ∃ s : State, HostOp.tickTimers ≠ .consumeRedraw ∧ s.needsRedraw = true := ⟨State.reset.setRedraw, by decide⟩
theorem witness_OnlyConsume_cycle : ∃ s t : State, cycle s = .next t ∧ s.needsRedraw = true :=
  ⟨State.reset.setRedraw.withFetchWord 16 0xD010, _, rfl, by decide⟩

theorem witness_HostReads_running : State.reset.status = .running := rfl
theorem witness_HostReads_fetch : (State.reset.raiseHalt .outOfBoundsFetch).status = .halted .outOfBoundsFetch := rfl
theorem witness_HostReads_underflow : (State.reset.raiseHalt .stackUnderflow).status = .halted .stackUnderflow := rfl
theorem witness_HostReads_overflow : (State.reset.raiseHalt .stackOverflow).status = .halted .stackOverflow := rfl
theorem witness_HostReads_access :
    (State.reset.raiseHalt (.outOfBoundsAccess 4096)).status = .halted (.outOfBoundsAccess 4096) := rfl
theorem witness_HostReads_key : (State.reset.raiseHalt (.badKeyIndex 16)).status = .halted (.badKeyIndex 16) := rfl
theorem witness_HostReads_pixel : ∃ x y : Nat, x = 63 ∧ y = 31 ∧ x < 64 ∧ y < 32 := ⟨63, 31, by decide⟩

theorem witness_ResetEntryPointIs0x200 : ∃ s : State, init [0x60#8, 0x05#8] = .ok s := ⟨_, rfl⟩

theorem witness_Load_longest :
    ∃ p : List Byte, p.length = 0xE00 ∧ p.length ≤ 0xE00 ∧ 0 < p.length :=
  ⟨List.replicate 0xE00 1#8, by rw [List.length_replicate]; decide⟩
theorem witness_Load_too_long : ∃ p : List Byte, 0xE00 < p.length :=
  ⟨List.replicate 0xE01 1#8, by rw [List.length_replicate]; decide⟩
theorem witness_Load_zeros : ∃ a : Nat, a = 0x202 ∧ 0x200 + [0x60#8, 0x05#8].length ≤ a ∧ a < 4096 := ⟨_, rfl, by decide⟩

theorem witness_ResetHoldsTheTabledValues :
    (∃ s : State, init [0x60#8] = .ok s) ∧ ∃ a : Nat, a = 80 ∧ 80 ≤ a ∧ a < 0x200 := ⟨⟨_, rfl⟩, _, rfl, by decide⟩

theorem witness_NoInstructionWrites_key_wait : ∃ s : State, s.keys = 0#16 := ⟨quiet, rfl⟩
theorem witness_NoInstructionWrites_halt :
    ∃ s t : State, s.status = .running ∧ exec .ret s = .next t ∧ t.status = .halted .stackUnderflow :=
  ⟨State.reset, _, rfl, rfl, rfl⟩

theorem witness_EachHalt_ret :
    ∃ s t : State, s.status = .running ∧ exec .ret s = .next t ∧ t.status = .halted .stackUnderflow :=
  ⟨State.reset, _, rfl, rfl, rfl⟩
theorem witness_EachHalt_call :
    ∃ s t : State, s.status = .running ∧ exec (.call 0x300#12) s = .next t ∧ t.status = .halted .stackOverflow :=
  ⟨State.reset.setStack (List.replicate 16 0#16), _, rfl, rfl, rfl⟩
theorem witness_EachHalt_access :
    ∃ s t : State, s.status = .running ∧ exec (.ldMemVx 15) s = .next t ∧ t.status = .halted (.outOfBoundsAccess 4096) :=
  ⟨State.reset.setI 0xFF1#16, _, rfl, rfl, rfl⟩
theorem witness_EachHalt_key :
    ∃ s t : State, s.status = .running ∧ exec (.sknp 5) s = .next t ∧ t.status = .halted (.badKeyIndex 16) :=
  ⟨regs [(5, 16)], _, rfl, rfl, rfl⟩

theorem witness_EveryInstructionKeepsItsFrame : ∃ s t : State, exec (.ldMemVx 15) s = .next t := ⟨State.reset, _, rfl⟩

theorem witness_InstructionsReadOnlyTheirDataBytes :
    ∃ (s t : State) (m : Memory), exec (.ldVxMem 1) s = .next t ∧ m ≠ s.mem ∧
      ∀ k, k < dataBytesRead (.ldVxMem 1) → Memory.read m (s.I.toNat + k) = s.readByte (s.I.toNat + k) :=
  ⟨State.reset.setI 0x300#16, _, [(0x302, 1#8)], rfl, by decide, by decide⟩

theorem witness_InstructionsIgnoreTheHostsObservations : ∃ s t : State, exec (.ldSTVx 3) s = .next t := ⟨State.reset, _, rfl⟩

theorem witness_CallPushesTheReturnAddress : ∃ s : State, s.sp = 15 ∧ s.sp < 16 :=
  ⟨State.reset.setStack (List.replicate 15 0x202#16), by decide⟩

theorem witness_ReturnPopsIntoPc : ∃ s : State, s.stack = 0x204#16 :: [] := ⟨State.reset.setStack [0x204#16], rfl⟩

theorem witness_StackBounds_full : ∃ s : State, s.sp = 16 := ⟨State.reset.setStack (List.replicate 16 0#16), by decide⟩
theorem witness_StackBounds_empty : ∃ s : State, s.sp = 0 := ⟨State.reset, by decide⟩

theorem witness_ReturnUndoesCall :
    ∃ s t u : State, s.sp < 16 ∧ exec (.call 0x300#12) s = .next t ∧ u.stack = t.stack ∧ u ≠ t :=
  ⟨State.reset, _, { State.reset with stack := [0x200#16], I := 1#16 }, by decide, rfl, by decide, by decide⟩

theorem witness_KeySkipsTestTheKey : ∃ s : State, (s.reg 5).toNat = 15 ∧ (s.reg 5).toNat ≤ 15 := ⟨regs [(5, 15)], by decide⟩
theorem witness_KeySkipOnABadIndexHalts : ∃ s : State, (s.reg 5).toNat = 16 ∧ 15 < (s.reg 5).toNat :=
  ⟨regs [(5, 16)], by decide⟩

theorem witness_LoadImmediateSetsVx : 0x6FFF#16 &&& 0xF000#16 = 0x6000#16 := by decide

theorem witness_AddWithCarry : (1 : Reg) ≠ 15 := by decide
theorem witness_Subtractions : (14 : Reg) ≠ 15 := by decide
theorem witness_Shifts : (0 : Reg) ≠ 15 := by decide

theorem witness_RandomIsTheInputMasked : ∃ s : State, s.rnd = 0xFF#8 := ⟨{ State.reset with rnd := 0xFF#8 }, rfl⟩

theorem witness_BcdStoresTheDecimalDigits : ∃ s : State, s.I.toNat = 0xFFD ∧ s.I.toNat + 2 < 4096 :=
  ⟨State.reset.setI 0xFFD#16, by decide⟩
theorem witness_StoreRegistersWritesV0ToVx :
    ∃ s : State, s.I.toNat = 0xFF0 ∧ s.I.toNat + (15 : Reg).val < 4096 ∧ (15 : Reg) ≤ 15 :=
  ⟨State.reset.setI 0xFF0#16, by decide⟩
theorem witness_LoadRegistersReadsV0ToVx :
    ∃ s : State, s.I.toNat = 0xFF1 ∧ s.I.toNat + (14 : Reg).val < 4096 ∧ (14 : Reg) ≤ 14 ∧ (14 : Reg) < 15 :=
  ⟨State.reset.setI 0xFF1#16, by decide⟩

theorem witness_DataAccess_ldB : ∃ s : State, s.I.toNat + 2 = 4096 ∧ 4096 ≤ s.I.toNat + 2 :=
  ⟨State.reset.setI 0xFFE#16, by decide⟩
theorem witness_DataAccess_registers : ∃ s : State, s.I.toNat + (15 : Reg).val = 4096 ∧ 4096 ≤ s.I.toNat + (15 : Reg).val :=
  ⟨State.reset.setI 0xFF1#16, by decide⟩
theorem witness_DataAccess_drw : ∃ s : State, 0 < 2 ∧ s.I.toNat + (2 - 1) = 4096 ∧ 4096 ≤ s.I.toNat + (2 - 1) :=
  ⟨State.reset.setI 0xFFF#16, by decide⟩

theorem witness_Draw_to_the_last_byte :
    ∃ s : State, (Instr.drw 0 1 15).wf = true ∧ s.I.toNat + 15 = 4096 ∧ (15 = 0 ∨ s.I.toNat + 15 ≤ 4096) :=
  ⟨State.reset.setI 0xFF1#16, by decide⟩
theorem witness_Draw_no_rows :
    ∃ s : State, (Instr.drw 0 1 0).wf = true ∧ s.I.toNat = 65535 ∧ (0 = 0 ∨ s.I.toNat + 0 ≤ 4096) :=
  ⟨State.reset.setI 0xFFFF#16, by decide⟩

/-- A state whose one-row sprite 0x80 lies in memory at 0xFFF, drawn at (V0, V1) = (255, 255), which is pixel (63, 31). -/
def cornerSprite : State := ((regs [(0, 255), (1, 255)]).setI 0xFFF#16).storeBytes 0xFFF [0x80]

theorem witness_DrawFlips_covered : spriteCovers cornerSprite 0 1 1 63 31 := ⟨0, 0, by decide⟩
theorem witness_DrawFlips_not_covered : ¬ spriteCovers cornerSprite 0 1 1 0 0 := by
  rintro ⟨row, col, hr, hc, -, -, hy⟩
  have h : (255 + row) % 32 = 0 := hy
  omega

theorem witness_DrawSetsVF_collision :
    ∃ s : State, (Instr.drw 0 1 1).wf = true ∧ s.I.toNat + 1 ≤ 4096 ∧
      ∃ px py : Nat, px < 64 ∧ py < 32 ∧ spriteCovers s 0 1 1 px py ∧ s.fb.pixel px py = true :=
  ⟨cornerSprite.setFb (Framebuffer.clear.flip 63 31), by decide, by decide, 63, 31, by decide, by decide,
    ⟨0, 0, by decide⟩, by decide⟩
theorem witness_DrawSetsVF_no_collision :
    ∃ s : State, (Instr.drw 0 1 0).wf = true ∧
      ¬ ∃ px py : Nat, px < 64 ∧ py < 32 ∧ spriteCovers s 0 1 0 px py ∧ s.fb.pixel px py = true :=
  ⟨State.reset, by decide, fun ⟨_, _, _, _, ⟨_, _, h, _⟩, _⟩ => Nat.not_lt_zero _ h⟩

theorem witness_DrawSetsTheRedrawFlag :
    ∃ s t : State, 1 ≤ 1 ∧ s.status = .running ∧ s.I.toNat + 1 ≤ 4096 ∧ exec (.drw 0 1 1) s = .next t ∧ t.status = .running :=
  ⟨State.reset.setI 0xFFF#16, _, by decide, rfl, by decide, rfl, rfl⟩

theorem witness_DrawingTwiceRestoresTheScreen :
    ∃ s t : State, (Instr.drw 0 1 1).wf = true ∧ (0 : Reg) ≠ 15 ∧ (1 : Reg) ≠ 15 ∧ s.I.toNat + 1 ≤ 4096 ∧
      exec (.drw 0 1 1) s = .next t := ⟨cornerSprite, _, by decide, by decide, by decide, by decide, rfl⟩

theorem witness_KeyWaitTakesTheLowestKey : ∃ s : State, s.keys ≠ 0#16 := ⟨{ State.reset with keys := 0x8000#16 }, by decide⟩

theorem witness_InitialStatesMeetTheInvariant : ∃ s : State, init [0x12#8, 0x00#8] = .ok s := ⟨_, rfl⟩

/-- A running state at pc = 0x200 with memory that lists only the word there, I and V5 out of every range. -/
def edgeState (mem : Memory) (st : List Word) : State :=
  { regs [(5, 16)] with mem := mem, stack := st, I := 0x1000#16 }

/-- A full stack of the highest return address. -/
def fullStack : List Word := List.replicate 16 0x1000#16

theorem fullStack_low : ∀ w ∈ fullStack, w.toNat ≤ 0x1000 := fun w h => by
  rw [List.eq_of_mem_replicate h]
  decide

theorem edgeState_inv (mem : Memory) (st : List Word) (hm : Memory.wf mem) (hd : st.length ≤ 16)
    (hr : ∀ w ∈ st, w.toNat ≤ 0x1000) : Inv (edgeState mem st) where
  memory := hm
  depth := hd
  returns := hr
  pc := (show (0x200#16 : Word).toNat ≤ 0x10FE by decide)
  cause := by
    intro c h
    have h0 : (edgeState mem st).status = .running := rfl
    rw [h0] at h
    cases h

/-- The status that one run step leaves, where it answers a next state. -/
def statusAfterStep (s : State) : Option Status :=
  match Host.Core.run Sys2Proof.core 1 s with
  | .next t => some t.status
  | .fault _ => none
  | .refused _ => none

theorem next_of_statusAfterStep {s : State} {st : Status} (h : statusAfterStep s = some st) :
    ∃ t : State, Host.Core.run Sys2Proof.core 1 s = .next t ∧ t.status = st := by
  unfold statusAfterStep at h
  split at h
  · exact ⟨_, ‹_›, Option.some.inj h⟩
  · cases h
  · cases h

/-- JP 0x200 at 0x200. -/
theorem status_jump : statusAfterStep (edgeState [(0x200, 0x12#8)] fullStack) = some .running := by decide
theorem status_underflow :
    statusAfterStep (edgeState [(0x201, 0xEE#8)] []) = some (.halted .stackUnderflow) := by decide
theorem status_overflow :
    statusAfterStep (edgeState [(0x200, 0x22#8)] fullStack) = some (.halted .stackOverflow) := by decide
theorem status_access :
    statusAfterStep (edgeState [(0x200, 0xF0#8), (0x201, 0x65#8)] []) = some (.halted (.outOfBoundsAccess 4096)) := by decide
theorem status_key :
    statusAfterStep (edgeState [(0x200, 0xE5#8), (0x201, 0x9E#8)] []) = some (.halted (.badKeyIndex 16)) := by decide
theorem status_fetch :
    statusAfterStep { State.reset with pc := 0x10FE#16 } = some (.halted .outOfBoundsFetch) := by decide

theorem witness_EveryStepKeepsTheInvariant : ∃ s : State, Inv s ∧ ∃ t : State, step s = .next t := by
  refine ⟨edgeState [(0x200, 0x12#8)] fullStack, edgeState_inv _ _ (by decide) (by decide) fullStack_low, ?_⟩
  obtain ⟨t, h, -⟩ := next_of_statusAfterStep status_jump
  refine ⟨t, ?_⟩
  simp only [Host.Core.run, Sys2Proof.core] at h
  split at h
  · cases h
    assumption
  · cases h
  · cases h

/-- The state from which the fetch fails. -/
theorem fetchFails_inv : Inv { State.reset with pc := 0x10FE#16 } where
  memory := Memory.wf_reset
  depth := by decide
  returns := List.forall_mem_nil _
  pc := by decide
  cause := by
    intro c h
    have h0 : State.reset.status = .running := rfl
    exact Status.noConfusion (h0.symm.trans h)

theorem witness_HaltCauses_fetch :
    ∃ s : State, Inv s ∧ ∃ t : State,
      Host.Core.run Sys2Proof.core 1 s = .next t ∧ t.status = .halted .outOfBoundsFetch :=
  ⟨{ State.reset with pc := 0x10FE#16 }, fetchFails_inv, next_of_statusAfterStep status_fetch⟩
theorem witness_HaltCauses_underflow :
    ∃ s : State, Inv s ∧ ∃ t : State,
      Host.Core.run Sys2Proof.core 1 s = .next t ∧ t.status = .halted .stackUnderflow :=
  ⟨edgeState [(0x201, 0xEE#8)] [], edgeState_inv _ _ (by decide) (by decide) (List.forall_mem_nil _),
    next_of_statusAfterStep status_underflow⟩
theorem witness_HaltCauses_overflow :
    ∃ s : State, Inv s ∧ ∃ t : State,
      Host.Core.run Sys2Proof.core 1 s = .next t ∧ t.status = .halted .stackOverflow :=
  ⟨edgeState [(0x200, 0x22#8)] fullStack, edgeState_inv _ _ (by decide) (by decide) fullStack_low,
    next_of_statusAfterStep status_overflow⟩
theorem witness_HaltCauses_access :
    ∃ s : State, Inv s ∧ ∃ t : State,
      Host.Core.run Sys2Proof.core 1 s = .next t ∧ t.status = .halted (.outOfBoundsAccess 4096) :=
  ⟨edgeState [(0x200, 0xF0#8), (0x201, 0x65#8)] [], edgeState_inv _ _ (by decide) (by decide) (List.forall_mem_nil _),
    next_of_statusAfterStep status_access⟩
theorem witness_HaltCauses_key :
    ∃ s : State, Inv s ∧ ∃ t : State,
      Host.Core.run Sys2Proof.core 1 s = .next t ∧ t.status = .halted (.badKeyIndex 16) :=
  ⟨edgeState [(0x200, 0xE5#8), (0x201, 0x9E#8)] [], edgeState_inv _ _ (by decide) (by decide) (List.forall_mem_nil _),
    next_of_statusAfterStep status_key⟩

end Sys2Proof.Tests
end

section
/-! PROOF. What one cycle does to a running core: the frame of every instruction (spec 10_state.md R21 to R38), the
fetched word as a number, the count of an unknown word, and who clears the redraw flag. -/

namespace Sys2Proof.Machine

/-! ## The frames that `exec` is made of -/

theorem Frame.withStatus {parts : List Part} {regs : List Reg} {s t : State} (h : Frame parts regs s t) :
    Frame (parts ++ [.status]) regs s t :=
  h.mono (fun _ hp => List.mem_append_left _ hp) (fun _ hr => hr)

/-- A halt fits every frame that lets the status change. -/
theorem Frame.of_raiseHalt (parts : List Part) (regs : List Reg) (s : State) (c : HaltCause) :
    Frame (parts ++ [.status]) regs s (s.raiseHalt c) :=
  (HaltsWith.of_raiseHalt s c).2.mono (fun _ hp => List.mem_append_right _ hp) (List.forall_mem_nil _)

theorem Frame.of_accessOrHalt {parts : List Part} {regs : List Reg} {s done : State} (count : Nat)
    (h : Frame parts regs s done) : Frame (parts ++ [.status]) regs s (s.accessOrHalt count done) := by
  obtain ⟨-, hd⟩ | ⟨-, -, hh⟩ := s.accessOrHalt_cases count done
  · rw [hd]; exact h.withStatus
  · rw [hh]; exact .of_raiseHalt parts regs s _

theorem Frame.of_keySkip (s : State) (k : Byte) (down : Bool) : Frame [.pc, .status] [] s (s.keySkip k down) := by
  unfold State.keySkip
  split
  · exact .of_raiseHalt [.pc] [] s _
  · exact (Frame.of_skipIf s _).withStatus

theorem Frame.of_setFb_setRedraw (s : State) (fb : Framebuffer) :
    Frame [.pixels, .redraw] [] s (s.setFb fb).setRedraw := by
  constructor <;> simp [KeepsRegs, KeepsMemory, KeepsHost]

theorem Frame.of_drawn (s : State) (b : Blit) (n : Nat) : Frame [.pixels, .redraw] [15] s (s.drawn b n) := by
  unfold State.drawn
  split <;> constructor <;> simp +contextual [KeepsRegs, KeepsMemory, KeepsHost]

theorem Frame.of_consumeRedraw (s : State) : Frame [.redraw] [] s s.consumeRedraw := by
  constructor <;> simp [KeepsRegs, KeepsMemory, KeepsHost]

theorem Frame.of_advancePc_countUnknown (s : State) : Frame [.pc, .count] [] s s.advancePc.countUnknown := by
  constructor <;> simp [KeepsRegs, KeepsMemory, KeepsHost]

theorem execRet_frame {s t : State} (h : execRet s = .next t) : Frame [.stack, .pc, .status] [] s t := by
  obtain rfl := Host.Outcome.next.inj h
  cases hs : s.stack with
  | nil =>
    rw [s.pop_nil hs]
    exact .of_raiseHalt [.stack, .pc] [] s _
  | cons w rest =>
    rw [s.pop_cons w rest hs]
    exact (Frame.of_setStack_setPc s rest w).mono (by simp) (by simp)

theorem execCall_frame {nnn : Addr} {s t : State} (h : execCall nnn s = .next t) :
    Frame [.stack, .pc, .status] [] s t := by
  obtain rfl := Host.Outcome.next.inj h
  by_cases hs : s.sp < 16
  · rw [s.push_eq_some s.pc hs]
    exact (Frame.of_setStack_setPc s _ _).mono (by simp) (by simp)
  · rw [s.push_eq_none s.pc (by omega)]
    exact .of_raiseHalt [.stack, .pc] [] s _

theorem execLdVxK_frame {x : Reg} {s t : State} (h : execLdVxK x s = .next t) : Frame [.pc] [x] s t := by
  obtain rfl := Host.Outcome.next.inj h
  split
  · exact (Frame.of_setReg s x _).mono (by simp) (by simp)
  · exact (Frame.of_setPc s _).mono (by simp) (by simp)

/-- An instruction changes only the parts and the registers that the spec's tables give it (10_state.md R21, R23, R27,
R29, R34 to R38; 20_memory.md R72; 60_exceptions.md R321). -/
theorem exec_frame {i : Instr} {s t : State} (h : exec i s = .next t) :
    Frame (changedParts i) (writtenRegs i) s t := by
  cases i with
  | ret => exact execRet_frame h
  | call _ => exact execCall_frame h
  | ldVxK _ => exact execLdVxK_frame h
  | jp _ | jpV0 _ => cases h; exact .of_setPc s _
  | seByte _ _ | sneByte _ _ | seReg _ _ | sneReg _ _ => cases h; exact .of_skipIf s _
  | skp _ | sknp _ => cases h; exact .of_keySkip s _ _
  | ldByte _ _ | addByte _ _ | rnd _ _ | ldVxDT _ | ldReg _ _ | orReg _ _ | andReg _ _ | xorReg _ _ =>
    cases h; exact .of_setReg s _ _
  | addReg _ _ | subReg _ _ | shr _ _ | subnReg _ _ | shl _ _ => cases h; exact .of_setResultAndFlag s _ _ _
  | ldI _ | addI _ | ldF _ => cases h; exact .of_setI s _
  | ldDTVx _ => cases h; exact .of_setDT s _
  | ldSTVx _ => cases h; exact .of_setST s _
  | ldB _ | ldMemVx _ => cases h; exact .of_accessOrHalt _ (.of_storeBytes s _ _)
  | ldVxMem _ => cases h; exact .of_accessOrHalt _ (.of_loadRegsUpTo s _ _)
  | cls => cases h; exact .of_setFb_setRedraw s _
  | drw _ _ _ => cases h; exact .of_accessOrHalt _ (.of_drawn s _ _)

/-! ## The redraw flag -/

theorem State.drawn_needsRedraw (s : State) (b : Blit) (n : Nat) :
    (s.drawn b n).needsRedraw = if n = 0 then s.needsRedraw else true := by
  unfold State.drawn
  split <;> rfl

theorem State.accessOrHalt_needsRedraw {s done : State} (count : Nat) (h : done.needsRedraw = true)
    (hs : s.needsRedraw = true) : (s.accessOrHalt count done).needsRedraw = true := by
  obtain ⟨-, hd⟩ | ⟨-, -, hh⟩ := s.accessOrHalt_cases count done
  · rw [hd, h]
  · rw [hh, State.raiseHalt_needsRedraw, hs]

theorem eq_cls_or_drw_of_redraw_mem_changedParts {i : Instr} (h : .redraw ∈ changedParts i) :
    i = .cls ∨ ∃ x y n, i = .drw x y n := by
  cases i <;> simp [changedParts] at h ⊢

/-- The two instructions that touch the redraw flag set it or leave it, and every other one keeps it by its frame. -/
theorem exec_keeps_redraw_set {i : Instr} {s t : State} (h : exec i s = .next t) (hs : s.needsRedraw = true) :
    t.needsRedraw = true := by
  by_cases hi : .redraw ∈ changedParts i
  · obtain rfl | ⟨x, y, n, rfl⟩ := eq_cls_or_drw_of_redraw_mem_changedParts hi
    · cases h
      exact State.setRedraw_needsRedraw _
    · cases h
      exact State.accessOrHalt_needsRedraw n (by simp [State.drawn_needsRedraw, hs]) hs
  · rw [(exec_frame h).redraw hi, hs]

theorem cycle_keeps_redraw_set {s t : State} (h : cycle s = .next t) (hs : s.needsRedraw = true) :
    t.needsRedraw = true := by
  obtain ⟨_, -, hc⟩ | ⟨-, -, hc⟩ | ⟨_, -, -, -, -, hc⟩ | ⟨_, i, -, -, -, -, hc⟩ := cycle_cases s <;> rw [hc] at h
  · cases h; exact hs
  · cases h; exact hs
  · cases h; exact hs
  · exact exec_keeps_redraw_set h hs

theorem hostEffect_needsRedraw {op : HostOp} (s : State) (h : op ≠ .consumeRedraw) :
    (hostEffect op s).needsRedraw = s.needsRedraw := by
  cases op with
  | consumeRedraw => exact absurd rfl h
  | tickTimers | framebuffer | status | unknownCount | timers | soundActive => rfl

/-! ## The fetched word -/

theorem wordOfBytes_toNat (hi lo : Byte) : (wordOfBytes hi lo).toNat = 256 * hi.toNat + lo.toNat := by
  rw [wordOfBytes, BitVec.toNat_append, ← Nat.shiftLeft_add_eq_or_of_lt lo.isLt, Nat.shiftLeft_eq, Nat.mul_comm]

theorem State.pc_le_of_fetch_eq_some {s : State} {op : Word} (h : s.fetch = some op) : s.pc.toNat ≤ 0x0FFE := by
  by_contra hp
  rw [s.fetch_eq_none (by omega)] at h
  cases h

theorem cycle_of_unknown {s : State} {op : Word} (hs : s.status = .running) (hf : s.fetch = some op)
    (hd : decodeWord op = .error (.unknownOpcode op)) : cycle s = .next s.advancePc.countUnknown := by
  simp [cycle, hs, hf, State.runWord, hd]

end Sys2Proof.Machine

namespace Sys2Proof.Proofs

open Sys2Proof.Machine

/-- Settles O15: of the host's operations only the consume touches the flag, and a cycle either keeps it or sets it. -/
theorem onlyConsumeClearsTheRedrawFlag : Obligations.OnlyConsumeClearsTheRedrawFlag :=
  ⟨fun s => ⟨rfl, s.consumeRedraw_needsRedraw, .of_consumeRedraw s⟩,
    fun _ s hop hs => (hostEffect_needsRedraw s hop).trans hs,
    fun _ _ hc hs => cycle_keeps_redraw_set hc hs⟩

/-- Settles O7: both bytes exist at any pc up to 0x0FFE, and the word appends the second to the first. -/
theorem fetchReadsTheBigEndianWord : Obligations.FetchReadsTheBigEndianWord :=
  fun s hp => ⟨_, s.fetch_eq_some hp, wordOfBytes_toNat _ _⟩

/-- Settles O8: the cycle is the advance of pc and the count, and a word that was fetched lies below the wrap of pc. -/
theorem unknownOpcodeIsCountedAndNothingElse : Obligations.UnknownOpcodeIsCountedAndNothingElse :=
  fun s _ hs hf hd =>
    ⟨_, cycle_of_unknown hs hf hd, rfl, s.advancePc_pc_toNat (State.pc_le_of_fetch_eq_some hf), hs,
      .of_advancePc_countUnknown s⟩

end Sys2Proof.Proofs
end

section
/-! PROOF. The words of family 6 and what they load (spec 30_encoding.md R90 to R93, 42_alu.md R191): the fields of a word
as numbers, and the row its top nibble selects. -/

namespace Sys2Proof

theorem fieldX_val (op : Word) : (fieldX op).val = op.toNat / 256 % 16 := by
  rw [fieldX, BitVec.val_toFin, BitVec.extractLsb'_toNat, Nat.shiftRight_eq_div_pow]

theorem fieldKK_toNat (op : Word) : (fieldKK op).toNat = op.toNat % 256 :=
  BitVec.extractLsb'_toNat 0 8 op

/-- The mask 0xF000 keeps the family nibble. -/
theorem fieldFamily_and_mask (op : Word) : fieldFamily (op &&& 0xF000#16) = fieldFamily op := by
  rw [fieldFamily, BitVec.extractLsb'_and]
  exact BitVec.and_allOnes

/-- Where the family's mask is 0xF000, a word so masked is its dispatch key (R92). -/
theorem dispatchKey_of_and_mask {op : Word} {f : BitVec 4} (h : op &&& 0xF000#16 = f ++ 0#12)
    (hm : dispatchMask (f ++ 0#12) = 0xF000#16) : dispatchKey op = f ++ 0#12 := by
  have hf : fieldFamily op = f := by
    rw [← fieldFamily_and_mask, h]
    exact BitVec.extractLsb'_append_eq_left
  rw [dispatchKey, Laws.DispatchKey.mask_of_family op f hf, hm, h]

/-- The row with key 0x6000 builds LD Vx, byte (R93). -/
theorem decodeWord_of_key_ldByte {op : Word} (h : dispatchKey op = 0x6000#16) :
    decodeWord op = .ok (.ldByte (fieldX op) (fieldKK op)) := by
  rw [decodeWord, h]
  rfl

end Sys2Proof

namespace Sys2Proof.Proofs

open Sys2Proof.Machine

/-- Settles O34: family 6 has one row, whose fields x and kk are the word's, and its meaning is one register write. -/
theorem loadImmediateSetsVx : Obligations.LoadImmediateSetsVx := by
  refine ⟨fun op h => ?_, fun x kk s => ?_⟩
  · have hkey : dispatchKey op = 0x6000#16 := dispatchKey_of_and_mask (f := 0x6#4) h rfl
    exact ⟨fieldX op, fieldKK op, decodeWord_of_key_ldByte hkey, fieldX_val op, fieldKK_toNat op⟩
  · exact ⟨s.setReg x kk, rfl, by rw [State.reg_setReg, if_pos rfl], .of_setReg s x kk⟩

end Sys2Proof.Proofs
end

section
/-! PROOF. Dxyn with at least one row sets needs_redraw unless it halts (spec 44_display.md R274). -/

namespace Sys2Proof.Machine

@[simp] theorem State.drawn_status (s : State) (b : Blit) (n : Nat) : (s.drawn b n).status = s.status :=
  (Frame.of_drawn s b n).status (by simp)

/-- An access that leaves the core running did not halt, so it made all its writes. -/
theorem State.accessOrHalt_eq_of_running {s done : State} {count : Nat}
    (h : (s.accessOrHalt count done).status = .running) : s.accessOrHalt count done = done := by
  obtain ⟨-, hd⟩ | ⟨-, -, hh⟩ := s.accessOrHalt_cases count done
  · exact hd
  · rw [hh, State.raiseHalt_status] at h
    cases h

end Sys2Proof.Machine

namespace Sys2Proof.Proofs

open Sys2Proof.Machine

/-- Settles O49: a draw that still runs has made its writes, needs_redraw among them; one in bounds makes them and
keeps the status. -/
theorem drawSetsTheRedrawFlag : Obligations.DrawSetsTheRedrawFlag := by
  intro x y n s hn hs
  refine ⟨_, rfl, fun ht => ?_, fun hI => ?_⟩
  · rw [State.accessOrHalt_eq_of_running ht, State.drawn_needsRedraw, if_neg (Nat.one_le_iff_ne_zero.mp hn)]
  · rw [s.accessOrHalt_inBounds n _ (.inr hI), State.drawn_status, hs]

end Sys2Proof.Proofs
end

section
/-! PROOF. Where a run ends and where it only hangs (spec 70_reset_and_hazards.md R365), what an instruction that halts
leaves (R367), and the entry point of reset (R363). -/

namespace Sys2Proof

/-- The row that a word's dispatch key finds builds its instruction (30_encoding.md R93). -/
theorem decodeWord_of_find_key {op k : Word} {r : OpRow} (hk : dispatchKey op = k)
    (hr : opcodeTable.find? (fun r => r.key == k) = some r) : decodeWord op = .ok (r.build op) := by
  rw [decodeWord, hk, hr]

theorem decodeWord_encode_jp (nnn : Addr) : decodeWord (encode (.jp nnn)) = .ok (.jp nnn) :=
  (decodeWord_of_find_key (Laws.DispatchKey.jp nnn) rfl).trans
    (congrArg (Except.ok <| Instr.jp ·) (fieldNNN_packNNN _ nnn))

theorem decodeWord_encode_ldVxK (x : Reg) : decodeWord (encode (.ldVxK x)) = .ok (.ldVxK x) :=
  (decodeWord_of_find_key (Laws.DispatchKey.ldVxK x) rfl).trans
    (congrArg (Except.ok <| Instr.ldVxK ·) (fieldX_packXKK _ x _))

end Sys2Proof

namespace Sys2Proof.Machine

/-! ## The cycle, by the state it starts from -/

theorem cycle_of_halted {s : State} {c : HaltCause} (hs : s.status = .halted c) : cycle s = .next s := by
  rw [cycle, hs]

theorem cycle_of_pc_out_of_bounds {s : State} (hs : s.status = .running) (hp : 0x0FFF ≤ s.pc.toNat) :
    cycle s = .next (s.raiseHalt .outOfBoundsFetch) := by
  rw [cycle, hs, s.fetch_eq_none hp]

theorem cycle_of_decoded {s : State} {op : Word} {i : Instr} (hs : s.status = .running) (hf : s.fetch = some op)
    (hd : decodeWord op = .ok i) : cycle s = exec i s.advancePc := by
  simp [cycle, hs, hf, State.runWord, hd]

/-! ## The two hangs -/

theorem addrOperand_toNat (nnn : Addr) : (addrOperand nnn).toNat = nnn.toNat :=
  BitVec.toNat_setWidth_of_le (by decide)

/-- A pc set back to the fetched address undoes the fetch's advance. -/
theorem State.advancePc_setPc_self (s : State) : s.advancePc.setPc s.pc = s := rfl

theorem State.lowestKeyDown_eq_none {s : State} (hk : s.keys = 0#16) : s.lowestKeyDown = none :=
  List.find?_eq_none.mpr fun k _ => by simp [State.keyDown, hk]

theorem exec_ldVxK_of_no_key (x : Reg) {s : State} (hk : s.keys = 0#16) :
    exec (.ldVxK x) s = .next (s.setPc (s.pc - 2#16)) := by
  rw [exec, execLdVxK, State.lowestKeyDown_eq_none hk]

/-- 1nnn to its own address is a fixed point of the cycle. -/
theorem cycle_of_self_jump {s : State} {nnn : Addr} (hs : s.status = .running) (hp : s.pc.toNat = nnn.toNat)
    (hf : s.fetch = some (encode (.jp nnn))) : cycle s = .next s := by
  have htarget : addrOperand nnn = s.pc := BitVec.eq_of_toNat_eq (by rw [addrOperand_toNat, hp])
  rw [cycle_of_decoded hs hf (decodeWord_encode_jp nnn), exec, execJp, htarget, State.advancePc_setPc_self]

/-- Fx0A with no key down is a fixed point of the cycle. -/
theorem cycle_of_key_wait {s : State} {x : Reg} (hs : s.status = .running) (hk : s.keys = 0#16)
    (hf : s.fetch = some (encode (.ldVxK x))) : cycle s = .next s := by
  have hback : s.advancePc.pc - 2#16 = s.pc := BitVec.add_sub_cancel s.pc 2#16
  rw [cycle_of_decoded hs hf (decodeWord_encode_ldVxK x), exec_ldVxK_of_no_key x (s := s.advancePc) hk, hback,
    State.advancePc_setPc_self]

/-! ## An instruction keeps the status, or it halts and does nothing else -/

/-- `t` has the status of `s`, or it is `s` halted. -/
def KeepsStatusOrHalts (s t : State) : Prop := t.status = s.status ∨ ∃ c, t = s.raiseHalt c

theorem KeepsStatusOrHalts.of_accessOrHalt {s done : State} (count : Nat) (h : done.status = s.status) :
    KeepsStatusOrHalts s (s.accessOrHalt count done) := by
  obtain ⟨-, hd⟩ | ⟨-, -, hh⟩ := s.accessOrHalt_cases count done
  · exact .inl (by rw [hd, h])
  · exact .inr ⟨_, hh⟩

theorem KeepsStatusOrHalts.of_keySkip (s : State) (k : Byte) (down : Bool) :
    KeepsStatusOrHalts s (s.keySkip k down) := by
  unfold State.keySkip
  split
  · exact .inr ⟨_, rfl⟩
  · exact .inl ((Frame.of_skipIf s _).status (by simp))

theorem execRet_keepsStatusOrHalts {s t : State} (h : execRet s = .next t) : KeepsStatusOrHalts s t := by
  obtain rfl := Host.Outcome.next.inj h
  cases hs : s.stack with
  | nil => exact .inr ⟨.stackUnderflow, by rw [s.pop_nil hs]⟩
  | cons w rest => exact .inl (by rw [s.pop_cons w rest hs]; rfl)

theorem execCall_keepsStatusOrHalts {nnn : Addr} {s t : State} (h : execCall nnn s = .next t) :
    KeepsStatusOrHalts s t := by
  obtain rfl := Host.Outcome.next.inj h
  by_cases hs : s.sp < 16
  · exact .inl (by rw [s.push_eq_some s.pc hs]; rfl)
  · exact .inr ⟨.stackOverflow, by rw [s.push_eq_none s.pc (by omega)]⟩

/-- The instructions that can halt are those with the status among their changed parts (60_exceptions.md R321); the
frame of every other one keeps it. -/
theorem exec_keepsStatusOrHalts {i : Instr} {s t : State} (h : exec i s = .next t) : KeepsStatusOrHalts s t := by
  cases i with
  | ret => exact execRet_keepsStatusOrHalts h
  | call _ => exact execCall_keepsStatusOrHalts h
  | skp _ | sknp _ => cases h; exact .of_keySkip s _ _
  | drw _ _ _ => cases h; exact .of_accessOrHalt _ (s.drawn_status _ _)
  | ldB _ | ldMemVx _ => cases h; exact .of_accessOrHalt _ (s.storeBytes_status _ _)
  | ldVxMem _ => cases h; exact .of_accessOrHalt _ (s.loadRegsUpTo_status _ _)
  | _ => exact .inl ((exec_frame h).status (by simp [changedParts]))

/-- A halt discards every write of its instruction (00_scope.md R11, 60_exceptions.md R323). -/
theorem eq_raiseHalt_of_exec_halted {i : Instr} {s t : State} {c : HaltCause} (hs : s.status = .running)
    (h : exec i s = .next t) (ht : t.status = .halted c) : t = s.raiseHalt c := by
  obtain hst | ⟨c', rfl⟩ := exec_keepsStatusOrHalts h
  · simp [hst, hs] at ht
  · cases ht
    rfl

/-! ## Reset -/

theorem eq_storeBytes_of_init {program : List Byte} {s : State} (h : init program = .ok s) :
    s = State.reset.storeBytes 0x200 program := by
  unfold init at h
  split at h
  · cases h
  · cases h
    rfl

end Sys2Proof.Machine

namespace Sys2Proof.Proofs

open Sys2Proof.Machine

/-- Settles O11: Halted and the two hangs are fixed points of the cycle, and past the end of memory the fetch halts. -/
theorem endOfRunIsAHaltAndAHangIsNot : Obligations.EndOfRunIsAHaltAndAHangIsNot :=
  ⟨fun _ _ hs => cycle_of_halted hs,
    fun _ hs hp => ⟨_, cycle_of_pc_out_of_bounds hs (by omega), rfl⟩,
    fun _ _ hs _ hp hf => cycle_of_self_jump hs hp hf,
    fun _ _ hs _ hk hf => cycle_of_key_wait hs hk hf⟩

/-- Settles O21: the key wait is one write of pc, and an instruction that halts answers the state it got with the halt
raised. -/
theorem noInstructionWritesAndThenHalts : Obligations.NoInstructionWritesAndThenHalts := by
  refine ⟨fun x s hk => ⟨_, exec_ldVxK_of_no_key x hk, rfl, .of_setPc s _⟩, fun i s t c hs h ht => ?_⟩
  rw [eq_raiseHalt_of_exec_halted hs h ht]
  exact ⟨.of_raiseHalt s c, s.raiseHalt_mem c⟩

/-- Settles O17: init is the reset state with the program stored, and a store keeps pc and the status. -/
theorem resetEntryPointIs0x200 : Obligations.ResetEntryPointIs0x200 := by
  intro program s h
  rw [eq_storeBytes_of_init h]
  exact ⟨State.storeBytes_pc .., State.storeBytes_status ..⟩

end Sys2Proof.Proofs
end

section
/-! PROOF. The decoder and the encoder are inverse, the handler table selects at most one row for a word, and the words
that select none (spec 30_encoding.md R90 to R96). -/

namespace Sys2Proof

/-! ## The fields of a word make the word -/

theorem family_append_fieldNNN (op : Word) : fieldFamily op ++ fieldNNN op = op :=
  (BitVec.extractLsb'_append_extractLsb'_eq_extractLsb' (start₁ := 0) (len₁ := 12) rfl).trans BitVec.extractLsb'_eq_self

theorem fieldX_append_fieldKK (op : Word) : regBits (fieldX op) ++ fieldKK op = fieldNNN op :=
  BitVec.extractLsb'_append_extractLsb'_eq_extractLsb' (start₁ := 0) (len₁ := 8) rfl

theorem fieldY_append_low (op : Word) : regBits (fieldY op) ++ op.extractLsb' 0 4 = fieldKK op :=
  BitVec.extractLsb'_append_extractLsb'_eq_extractLsb' (start₁ := 0) (len₁ := 4) rfl

theorem packNNN_fields {op : Word} {f : BitVec 4} (hf : fieldFamily op = f) : packNNN f (fieldNNN op) = op := by
  rw [← hf, packNNN, family_append_fieldNNN]

theorem packXKK_fields {op : Word} {f : BitVec 4} {k : Byte} (hf : fieldFamily op = f) (hk : fieldKK op = k) :
    packXKK f (fieldX op) k = op := by
  rw [← hf, ← hk, packXKK, fieldX_append_fieldKK, family_append_fieldNNN]

theorem packXYN_fields {op : Word} {f n : BitVec 4} (hf : fieldFamily op = f) (hn : op.extractLsb' 0 4 = n) :
    packXYN f (fieldX op) (fieldY op) n = op := by
  rw [← hf, ← hn, packXYN, fieldY_append_low, fieldX_append_fieldKK, family_append_fieldNNN]

theorem fieldN_le (op : Word) : fieldN op ≤ 15 := Nat.le_of_lt_succ (BitVec.isLt _)

/-! ## Masks and keys -/

/-- Bits that a mask keeps are the word's. -/
theorem extract_of_and_mask {op mask key : Word} {start len : Nat} (h : op &&& mask = key)
    (hm : mask.extractLsb' start len = BitVec.allOnes len) :
    op.extractLsb' start len = key.extractLsb' start len := by
  rw [← h, BitVec.extractLsb'_and, hm, BitVec.and_allOnes]

/-- Every row's mask keeps the family nibble and is the one R92 gives the row's key. -/
theorem mask_of_mem_opcodeTable : ∀ r ∈ opcodeTable, fieldFamily r.mask = 0xF#4 ∧ dispatchMask r.key = r.mask := by
  decide

theorem opcodeTable_keys_distinct : opcodeTable.Pairwise (fun q r => q.key ≠ r.key) := by decide

theorem dispatchMask_of_family {op op' : Word} (h : fieldFamily op = fieldFamily op') :
    dispatchMask op = dispatchMask op' := by
  rw [dispatchMask, dispatchMask, h]

theorem fieldFamily_dispatchMask (op : Word) : fieldFamily (dispatchMask op) = 0xF#4 := by
  unfold dispatchMask
  split <;> rfl

theorem fieldFamily_dispatchKey (op : Word) : fieldFamily (dispatchKey op) = fieldFamily op :=
  (extract_of_and_mask rfl (fieldFamily_dispatchMask op)).symm

/-- A word matches a row under the row's own mask exactly when the row has its dispatch key (R92, R96). -/
theorem and_mask_eq_key_iff {op : Word} {r : OpRow} (hr : r ∈ opcodeTable) :
    op &&& r.mask = r.key ↔ dispatchKey op = r.key := by
  obtain ⟨hfam, hmask⟩ := mask_of_mem_opcodeTable r hr
  constructor
  · intro h
    rw [dispatchKey, dispatchMask_of_family (extract_of_and_mask h hfam), hmask, h]
  · intro h
    rw [← hmask, ← h, dispatchMask_of_family (fieldFamily_dispatchKey op), dispatchKey]

/-! ## Decoding what was encoded -/

/-- The instruction's encoding dispatches to its own row. -/
theorem dispatchKey_encode (i : Instr) : dispatchKey (encode i) = Laws.DispatchKey.rowKey i := by
  cases i with
  | cls | ret => rfl
  | jp a | call a | ldI a | jpV0 a => exact Laws.DispatchKey.key_packNNN _ a rfl
  | seByte x k | sneByte x k | ldByte x k | addByte x k | rnd x k => exact Laws.DispatchKey.key_packXKK _ x k rfl
  | drw x y n => exact Laws.DispatchKey.key_packXYN _ x y _ rfl
  | seReg x y | sneReg x y | ldReg x y | orReg x y | andReg x y | xorReg x y | addReg x y | subReg x y | shr x y
    | subnReg x y | shl x y => exact Laws.DispatchKey.key_packXYN_nibble _ x y _ rfl
  | skp x | sknp x | ldVxDT x | ldVxK x | ldDTVx x | ldSTVx x | addI x | ldF x | ldB x | ldMemVx x | ldVxMem x =>
    exact Laws.DispatchKey.key_packXKK_byte _ x _ rfl

/-- The row of an instruction builds it back from the fields of its encoding. -/
theorem decodeWord_encode (i : Instr) (h : i.wf = true) : decodeWord (encode i) = .ok i := by
  have hkey := dispatchKey_encode i
  cases i with
  | cls | ret => rfl
  | jp a | call a | ldI a | jpV0 a =>
    rw [decodeWord_of_find_key hkey rfl]
    simp only [encode, fieldNNN_packNNN]
  | seByte x k | sneByte x k | ldByte x k | addByte x k | rnd x k =>
    rw [decodeWord_of_find_key hkey rfl]
    simp only [encode, fieldX_packXKK, fieldKK_packXKK]
  | drw x y n =>
    have hn : n < 2 ^ 4 := Nat.lt_succ_of_le (of_decide_eq_true h)
    rw [decodeWord_of_find_key hkey rfl]
    simp only [encode, fieldX_packXYN, fieldY_packXYN, fieldN_packXYN, BitVec.toNat_ofNat, Nat.mod_eq_of_lt hn]
  | seReg x y | sneReg x y | ldReg x y | orReg x y | andReg x y | xorReg x y | addReg x y | subReg x y | shr x y
    | subnReg x y | shl x y =>
    rw [decodeWord_of_find_key hkey rfl]
    simp only [encode, fieldX_packXYN, fieldY_packXYN]
  | skp x | sknp x | ldVxDT x | ldVxK x | ldDTVx x | ldSTVx x | addI x | ldF x | ldB x | ldMemVx x | ldVxMem x =>
    rw [decodeWord_of_find_key hkey rfl]
    simp only [encode, fieldX_packXKK]

/-! ## Encoding what was decoded -/

/-- Every word that matches the row is the encoding of the well-formed instruction the row builds. -/
def RoundTrips (r : OpRow) : Prop :=
  ∀ op : Word, op &&& r.mask = r.key → (r.build op).wf = true ∧ encode (r.build op) = op

theorem roundTrips_of_packNNN {key : Word} {build : Word → Instr}
    (hb : ∀ op, (build op).wf = true ∧ encode (build op) = packNNN (fieldFamily key) (fieldNNN op)) :
    RoundTrips ⟨key, 0xF000#16, build⟩ := fun op h =>
  (hb op).imp_right (·.trans (packNNN_fields (extract_of_and_mask (mask := 0xF000#16) h rfl)))

theorem roundTrips_of_packXKK {key : Word} {build : Word → Instr}
    (hb : ∀ op, (build op).wf = true ∧ encode (build op) = packXKK (fieldFamily key) (fieldX op) (fieldKK op)) :
    RoundTrips ⟨key, 0xF000#16, build⟩ := fun op h =>
  (hb op).imp_right (·.trans (packXKK_fields (extract_of_and_mask (mask := 0xF000#16) h rfl) rfl))

theorem roundTrips_of_packXYN {key : Word} {build : Word → Instr}
    (hb : ∀ op, (build op).wf = true ∧
      encode (build op) = packXYN (fieldFamily key) (fieldX op) (fieldY op) (key.extractLsb' 0 4)) :
    RoundTrips ⟨key, 0xF00F#16, build⟩ := fun op h =>
  (hb op).imp_right (·.trans (packXYN_fields (extract_of_and_mask (mask := 0xF00F#16) h rfl)
    (extract_of_and_mask (mask := 0xF00F#16) h rfl)))

theorem roundTrips_of_packXKK_byte {key : Word} {build : Word → Instr}
    (hb : ∀ op, (build op).wf = true ∧ encode (build op) = packXKK (fieldFamily key) (fieldX op) (fieldKK key)) :
    RoundTrips ⟨key, 0xF0FF#16, build⟩ := fun op h =>
  (hb op).imp_right (·.trans (packXKK_fields (extract_of_and_mask (mask := 0xF0FF#16) h rfl)
    (extract_of_and_mask (mask := 0xF0FF#16) h rfl)))

theorem roundTrips_of_fixed {key : Word} {i : Instr} (hb : i.wf = true ∧ encode i = key) :
    RoundTrips ⟨key, 0xFFFF#16, fun _ => i⟩ := fun _ h =>
  hb.imp_right (·.trans (h.symm.trans BitVec.and_allOnes))

theorem encode_drw_fields (op : Word) :
    encode (.drw (fieldX op) (fieldY op) (fieldN op)) = packXKK 0xD#4 (fieldX op) (fieldKK op) := by
  rw [encode, fieldN, BitVec.ofNat_toNat, BitVec.setWidth_eq, packXYN, fieldY_append_low, packXKK]

theorem opcodeRows0to7_roundTrip : ∀ r ∈ opcodeRows0to7, RoundTrips r := by
  simp only [opcodeRows0to7, List.forall_mem_cons]
  exact ⟨roundTrips_of_fixed ⟨rfl, rfl⟩, roundTrips_of_fixed ⟨rfl, rfl⟩,
    roundTrips_of_packNNN fun _ => ⟨rfl, rfl⟩, roundTrips_of_packNNN fun _ => ⟨rfl, rfl⟩,
    roundTrips_of_packXKK fun _ => ⟨rfl, rfl⟩, roundTrips_of_packXKK fun _ => ⟨rfl, rfl⟩,
    roundTrips_of_packXYN fun _ => ⟨rfl, rfl⟩,
    roundTrips_of_packXKK fun _ => ⟨rfl, rfl⟩, roundTrips_of_packXKK fun _ => ⟨rfl, rfl⟩, List.forall_mem_nil _⟩

theorem opcodeRows8to9_roundTrip : ∀ r ∈ opcodeRows8to9, RoundTrips r := by
  simp only [opcodeRows8to9, List.forall_mem_cons]
  refine ⟨?_, ?_, ?_, ?_, ?_, ?_, ?_, ?_, ?_, ?_, List.forall_mem_nil _⟩
  all_goals exact roundTrips_of_packXYN fun _ => ⟨rfl, rfl⟩

theorem opcodeRowsAtoF_roundTrip : ∀ r ∈ opcodeRowsAtoF, RoundTrips r := by
  simp only [opcodeRowsAtoF, List.forall_mem_cons]
  refine ⟨roundTrips_of_packNNN fun _ => ⟨rfl, rfl⟩, roundTrips_of_packNNN fun _ => ⟨rfl, rfl⟩,
    roundTrips_of_packXKK fun _ => ⟨rfl, rfl⟩,
    roundTrips_of_packXKK fun op => ⟨decide_eq_true (fieldN_le op), encode_drw_fields op⟩,
    ?_, ?_, ?_, ?_, ?_, ?_, ?_, ?_, ?_, ?_, ?_, List.forall_mem_nil _⟩
  all_goals exact roundTrips_of_packXKK_byte fun _ => ⟨rfl, rfl⟩

theorem opcodeTable_roundTrip : ∀ r ∈ opcodeTable, RoundTrips r :=
  List.forall_mem_append.2
    ⟨List.forall_mem_append.2 ⟨opcodeRows0to7_roundTrip, opcodeRows8to9_roundTrip⟩, opcodeRowsAtoF_roundTrip⟩

/-! ## The row a word selects -/

theorem find_key_of_pairwise {rows : List OpRow} (hd : rows.Pairwise (fun q r => q.key ≠ r.key)) {r : OpRow}
    (hr : r ∈ rows) : rows.find? (fun q => q.key == r.key) = some r := by
  induction hd with
  | nil => cases hr
  | cons hq _ ih =>
    obtain rfl | hr := List.mem_cons.1 hr
    · exact List.find?_cons_of_pos (beq_self_eq_true _)
    · rw [List.find?_cons_of_neg (by simpa using hq r hr), ih hr]

theorem decodeWord_of_mem {op : Word} {r : OpRow} (hr : r ∈ opcodeTable) (hk : dispatchKey op = r.key) :
    decodeWord op = .ok (r.build op) :=
  decodeWord_of_find_key hk (find_key_of_pairwise opcodeTable_keys_distinct hr)

/-! ## The words that select none -/

/-- The low 12 bits of the keys whose family nibble is `f`. -/
def familyLows (f : Nat) : List Nat := ((opcodeTable.map (·.key.toNat)).filter (· / 4096 = f)).map (· % 4096)

theorem mem_familyLows_iff {f low : Nat} (hl : low < 4096) :
    low ∈ familyLows f ↔ ∃ r ∈ opcodeTable, r.key.toNat = 4096 * f + low := by
  simp only [familyLows, List.mem_map, List.mem_filter, decide_eq_true_eq]
  constructor
  · rintro ⟨_, ⟨⟨r, hr, rfl⟩, hf⟩, hlow⟩
    exact ⟨r, hr, by omega⟩
  · rintro ⟨r, hr, hk⟩
    exact ⟨_, ⟨⟨r, hr, rfl⟩, by omega⟩, by omega⟩

/-- A word is unknown when no key of its family has the low bits of its dispatch key. -/
theorem decodeWord_eq_unknown_iff {op : Word} {f low : Nat} (hd : (dispatchKey op).toNat = 4096 * f + low)
    (hl : low < 4096) : decodeWord op = .error (.unknownOpcode op) ↔ low ∉ familyLows f := by
  rw [mem_familyLows_iff hl]
  constructor
  · rintro h ⟨r, hr, hk⟩
    cases h.symm.trans (decodeWord_of_mem hr (BitVec.eq_of_toNat_eq (hd.trans hk.symm)))
  · intro h
    obtain ⟨r, hr, hk, -⟩ | h' := Machine.decodeWord_cases op
    · exact absurd ⟨r, hr, by rw [hk, hd]⟩ h
    · exact h'

theorem fieldFamily_eq_of_div {op : Word} {f : Nat} (h : op.toNat / 4096 = f) : fieldFamily op = BitVec.ofNat 4 f := by
  apply BitVec.eq_of_toNat_eq
  rw [fieldFamily, BitVec.extractLsb'_toNat, Nat.shiftRight_eq_div_pow, BitVec.toNat_ofNat, ← h]

theorem ofNat_family_toNat {op : Word} {f : Nat} (h : op.toNat / 4096 = f) : (BitVec.ofNat 4 f).toNat = f := by
  have := op.isLt
  rw [BitVec.toNat_ofNat]
  omega

theorem packNNN_toNat (f : BitVec 4) (a : Addr) : (packNNN f a).toNat = 4096 * f.toNat + a.toNat := by
  rw [packNNN, BitVec.toNat_append, ← Nat.shiftLeft_add_eq_or_of_lt a.isLt, Nat.shiftLeft_eq, Nat.mul_comm]

theorem zero_append_toNat {m n : Nat} (k : BitVec n) : (0#m ++ k).toNat = k.toNat := by
  rw [BitVec.toNat_append, BitVec.toNat_ofNat, Nat.zero_mod, Nat.zero_shiftLeft, Nat.zero_or]

/-- In the 0 family a word is its own key (R92, D17). -/
theorem unknown_iff_of_mask_word {op : Word} (h : op.toNat / 4096 = 0) :
    decodeWord op = .error (.unknownOpcode op) ↔ op.toNat ∉ familyLows 0 := by
  refine decodeWord_eq_unknown_iff ?_ (by omega)
  rw [dispatchKey, Laws.DispatchKey.mask_of_family op _ (fieldFamily_eq_of_div h), Nat.mul_zero, Nat.zero_add]
  exact congrArg BitVec.toNat BitVec.and_allOnes

section
variable {op : Word} {f : Nat} (h : op.toNat / 4096 = f)
include h

theorem unknown_iff_of_mask_family (hm : dispatchMask (BitVec.ofNat 4 f ++ 0#12) = 0xF000#16) :
    decodeWord op = .error (.unknownOpcode op) ↔ 0 ∉ familyLows f := by
  refine decodeWord_eq_unknown_iff ?_ (by decide)
  rw [← packNNN_fields (fieldFamily_eq_of_div h), Laws.DispatchKey.key_packNNN _ _ hm]
  exact (packNNN_toNat _ 0#12).trans (by rw [ofNat_family_toNat h]; rfl)

theorem unknown_iff_of_mask_nibble (hm : dispatchMask (BitVec.ofNat 4 f ++ 0#12) = 0xF00F#16) :
    decodeWord op = .error (.unknownOpcode op) ↔ op.toNat % 16 ∉ familyLows f := by
  refine decodeWord_eq_unknown_iff ?_ (by omega)
  conv_lhs => rw [← packXYN_fields (fieldFamily_eq_of_div h) rfl, Laws.DispatchKey.key_packXYN_nibble _ _ _ _ hm]
  refine (packNNN_toNat _ _).trans ?_
  rw [zero_append_toNat, zero_append_toNat, ofNat_family_toNat h, BitVec.extractLsb'_toNat, Nat.shiftRight_zero]

theorem unknown_iff_of_mask_byte (hm : dispatchMask (BitVec.ofNat 4 f ++ 0#12) = 0xF0FF#16) :
    decodeWord op = .error (.unknownOpcode op) ↔ op.toNat % 256 ∉ familyLows f := by
  refine decodeWord_eq_unknown_iff ?_ (by omega)
  conv_lhs => rw [← packXKK_fields (fieldFamily_eq_of_div h) rfl, Laws.DispatchKey.key_packXKK_byte _ _ _ hm]
  refine (packNNN_toNat _ _).trans ?_
  rw [zero_append_toNat, ofNat_family_toNat h, fieldKK_toNat]

end

/-- The families with one row compare the family nibble alone (R92). -/
theorem mask_and_familyLows_of_one_row : ∀ f ∈ [1, 2, 3, 4, 6, 7, 10, 11, 12, 13],
    dispatchMask (BitVec.ofNat 4 f ++ 0#12) = 0xF000#16 ∧ familyLows f = [0] := by decide

end Sys2Proof

namespace Sys2Proof.Proofs

open Sys2Proof.Machine

/-- Settles O1: the two bytes make the word again, and the word's row builds the instruction back from its fields. -/
theorem decodeOfEncodeIsTheInstruction : Obligations.DecodeOfEncodeIsTheInstruction := by
  intro i rest h
  simp only [encodeBytes, bytesOfWord, List.cons_append, List.nil_append, decode, wordOfBytes_bytes,
    decodeWord_encode i h]

/-- Settles O2: the word matches the row it selected, and every row round-trips the words that match it. -/
theorem encodeOfDecodeIsTheWord : Obligations.EncodeOfDecodeIsTheWord := by
  intro op i h
  obtain ⟨r, hr, hk, hd⟩ | hd := decodeWord_cases op
  · obtain rfl := Except.ok.inj (hd.symm.trans h)
    exact opcodeTable_roundTrip r hr op ((and_mask_eq_key_iff hr).2 hk.symm)
  · cases hd.symm.trans h

/-- Settles O4: a word matches exactly the row that has its dispatch key, and a key fixes its mask. -/
theorem eachWordSelectsAtMostOneRow : Obligations.EachWordSelectsAtMostOneRow := by
  refine ⟨rfl, fun op r hr h => ?_⟩
  have hk := (and_mask_eq_key_iff hr).1 h
  refine ⟨decodeWord_of_mem hr hk, fun q hq hqm => ?_⟩
  have hkeys : q.key = r.key := ((and_mask_eq_key_iff hq).1 hqm).symm.trans hk
  exact ⟨hkeys, by rw [← (mask_of_mem_opcodeTable q hq).2, ← (mask_of_mem_opcodeTable r hr).2, hkeys]⟩

/-- Settles O5: each word is the encoding of the instruction it stands for, and 5001 has no row. -/
theorem sampleWordsDecodeAsTheTableSays : Obligations.SampleWordsDecodeAsTheTableSays :=
  ⟨decodeWord_encode .cls rfl, decodeWord_encode (.call 0x300#12) rfl, decodeWord_encode (.ldByte 0 5#8) rfl,
    decodeWord_encode (.addReg 1 2) rfl, decodeWord_encode (.ldI 0x2F0#12) rfl, decodeWord_encode (.drw 0 1 5) rfl,
    decodeWord_encode (.skp 5) rfl, decodeWord_encode (.ldVxK 4) rfl, decodeWord_encode (.ldVxMem 2) rfl,
    (unknown_iff_of_mask_nibble (f := 5) rfl rfl).2 (by decide)⟩

/-- Settles O3: the family's mask says which low bits its keys are compared on. -/
theorem unknownWordsAreTheTabledOnes : Obligations.UnknownWordsAreTheTabledOnes := by
  intro op
  have hop := op.isLt
  obtain h | h | h | h | h | h | h : op.toNat / 4096 = 0 ∨ op.toNat / 4096 = 5 ∨ op.toNat / 4096 = 8 ∨
      op.toNat / 4096 = 9 ∨ op.toNat / 4096 = 14 ∨ op.toNat / 4096 = 15 ∨
      op.toNat / 4096 ∈ [1, 2, 3, 4, 6, 7, 10, 11, 12, 13] := by
    simp only [List.mem_cons]
    omega
  · rw [unknown_iff_of_mask_word h, show familyLows 0 = [0xE0, 0xEE] from rfl]
    simp [h]
  · rw [unknown_iff_of_mask_nibble h rfl, show familyLows 5 = [0] from rfl]
    simp [h]
  · have hlow : op.toNat % 16 ∉ [0, 1, 2, 3, 4, 5, 6, 7, 0xE] ↔ 7 < op.toNat % 16 ∧ op.toNat % 16 ≠ 0xE := by
      simp only [List.mem_cons, List.not_mem_nil, or_false, not_or]
      omega
    rw [unknown_iff_of_mask_nibble h rfl, show familyLows 8 = [0, 1, 2, 3, 4, 5, 6, 7, 0xE] from rfl, hlow]
    simp [h]
  · rw [unknown_iff_of_mask_nibble h rfl, show familyLows 9 = [0] from rfl]
    simp [h]
  · rw [unknown_iff_of_mask_byte h rfl, show familyLows 14 = [0x9E, 0xA1] from rfl]
    simp [h]
  · rw [unknown_iff_of_mask_byte h rfl,
      show familyLows 15 = [0x07, 0x0A, 0x15, 0x18, 0x1E, 0x29, 0x33, 0x55, 0x65] from rfl]
    simp [h]
  · obtain ⟨hm, hlows⟩ := mask_and_familyLows_of_one_row _ h
    rw [unknown_iff_of_mask_family rfl hm, hlows]
    refine iff_of_false (by simp) ?_
    simp only [List.mem_cons, List.not_mem_nil, or_false] at h
    omega

end Sys2Proof.Proofs
end

section
/-! PROOF. The cycle and the step (spec 40_core_cycle.md R122 to R131), the host's operations and its turn (R120, R121,
R133 to R136), and reset with the load (70_reset_and_hazards.md R360 to R362, 20_memory.md R65). -/

namespace Sys2Proof.Machine

/-! ## Every step answers a next state -/

/-- Every instruction answers a next state: a halt is one (60_exceptions.md R323). -/
theorem exec_answers_next (i : Instr) (s : State) : ∃ t, exec i s = .next t := by
  cases i <;> exact ⟨_, rfl⟩

theorem cycle_answers_next (s : State) : ∃ t, cycle s = .next t := by
  obtain ⟨_, -, hc⟩ | ⟨-, -, hc⟩ | ⟨_, -, -, -, -, hc⟩ | ⟨_, i, -, -, -, -, hc⟩ := cycle_cases s
  · exact ⟨_, hc⟩
  · exact ⟨_, hc⟩
  · exact ⟨_, hc⟩
  · rw [hc]
    exact exec_answers_next i _

theorem step_of_cycle {s t : State} (h : cycle s = .next t) : step s = .next (hostTurn t) := by
  rw [step, h]

theorem decodeWord_of_decode {hi lo : Byte} {i : Instr} (h : decode [hi, lo] = .ok (i, [])) :
    decodeWord (wordOfBytes hi lo) = .ok i := by
  simp only [decode] at h
  split at h
  · cases h; assumption
  · cases h

/-! ## Host operations -/

/-- Each tick in the list counts each timer down once, and no other operation moves them (R133). -/
theorem hostEffects_timers (ops : List HostOp) (s : State) :
    (hostEffects ops s).DT.toNat = s.DT.toNat - ops.count .tickTimers ∧
      (hostEffects ops s).ST.toNat = s.ST.toNat - ops.count .tickTimers := by
  induction ops generalizing s with
  | nil => exact ⟨rfl, rfl⟩
  | cons op ops ih =>
    rw [hostEffects, (ih _).1, (ih _).2]
    cases op with
    | tickTimers =>
      simp only [hostEffect, State.tickTimers_DT, State.tickTimers_ST, countDown_toNat, List.count_cons_self]
      omega
    | _ => exact ⟨by rw [List.count_cons_of_ne (by decide)]; rfl, by rw [List.count_cons_of_ne (by decide)]; rfl⟩

/-- The flag survives a list of operations with no consume in it, and no operation sets it (R134). -/
theorem hostEffects_needsRedraw_iff (ops : List HostOp) (s : State) :
    (hostEffects ops s).needsRedraw = true ↔ s.needsRedraw = true ∧ .consumeRedraw ∉ ops := by
  induction ops generalizing s with
  | nil => simp [hostEffects]
  | cons op ops ih =>
    rw [hostEffects, ih]
    by_cases hop : op = .consumeRedraw
    · subst hop
      simp [hostEffect]
    · rw [hostEffect_needsRedraw s hop, List.mem_cons, not_or, and_iff_right (Ne.symm hop)]

theorem Frame.of_hostEffects (ops : List HostOp) (s : State) :
    Frame [.delay, .sound, .redraw] [] s (hostEffects ops s) := by
  obtain ⟨dt, st, b, h⟩ := hostEffects_eq ops s
  rw [h]
  constructor <;> simp [KeepsRegs, KeepsMemory, KeepsHost, State.reg, State.readByte]

theorem hostTurn_of_script_cons {s : State} {turn : HostTurn} {rest : List HostTurn} (h : s.script = turn :: rest) :
    hostTurn s = { hostEffects turn.ops s with script := rest, keys := turn.keys, rnd := turn.rnd } := by
  rw [hostTurn, h, ← s.afterHost_eq]
  rfl

theorem hostTurn_of_script_nil {s : State} (h : s.script = []) :
    hostTurn s =
      { hostEffects (Config.freeOps s.draws) s with
        keys := Config.freeKeys s.draws, rnd := Config.freeRnd s.draws, draws := s.draws + 1 } := by
  rw [hostTurn, h, ← s.afterHost_eq]
  rfl

/-! ## The host's reads -/

theorem State.soundActive_iff (s : State) : s.soundActive = true ↔ s.ST.toNat ≠ 0 := by
  rw [State.soundActive, bne_iff_ne, ne_eq, ne_eq, ← BitVec.toNat_inj]
  rfl

theorem pixelRow_val {y : Nat} (h : y < 32) : (pixelRow y).val = y := Nat.mod_eq_of_lt h

theorem pixelCol_eq {x : Nat} (h : x < 64) : pixelCol x = x := Nat.mod_eq_of_lt h

/-- The flat index `y * 64 + x` names the pixel in column x of row y (10_state.md R37). -/
theorem Framebuffer.bit_flat_index (fb : Framebuffer) {x : Nat} (y : Nat) (h : x < 64) :
    fb.bit (y * 64 + x) = fb.pixel x y := by
  have hcol : (y * 64 + x) % 64 = x := by omega
  have hrow : (y * 64 + x) / 64 = y := by omega
  rw [Framebuffer.bit, hcol, hrow]

theorem Framebuffer.pixel_eq_getLsbD (fb : Framebuffer) {x y : Nat} (hx : x < 64) (hy : y < 32) :
    fb.pixel x y = (fb[y]!).getLsbD x := by
  rw [Framebuffer.pixel, pixelCol_eq hx, Fin.getElem_fin, getElem!_pos fb y hy]
  simp only [pixelRow_val hy]

/-! ## Reset and load -/

theorem init_of_length_le {program : List Byte} (h : program.length ≤ 0xE00) :
    init program = .ok (State.reset.storeBytes 0x200 program) :=
  if_neg (Nat.not_lt.2 h)

theorem init_of_length_gt {program : List Byte} (h : 0xE00 < program.length) : init program = .error .tooLarge :=
  if_pos h

/-- Past the 80 font bytes memory comes up as zeros (20_memory.md R65). -/
theorem initialByte_of_ge {a : Nat} (h : 80 ≤ a) : initialByte a = 0#8 :=
  (if_neg (Nat.not_lt_zero a)).trans (List.getD_eq_default _ _ h)

/-- What memory holds after init: the program from 0x200, and the reset content elsewhere. -/
theorem readByte_of_init (program : List Byte) (a : Nat) :
    (State.reset.storeBytes 0x200 program).readByte a =
      if 0x200 ≤ a ∧ a < 0x200 + program.length then program.getD (a - 0x200) 0#8 else initialByte a :=
  State.readByte_storeBytes _ _ _ _

theorem readByte_of_init_below (program : List Byte) {a : Nat} (h : a < 0x200) :
    (State.reset.storeBytes 0x200 program).readByte a = initialByte a := by
  rw [readByte_of_init, if_neg (by omega)]

end Sys2Proof.Machine

namespace Sys2Proof.Proofs

open Sys2Proof.Machine

/-- Settles O20: a cycle answers a next state, and the host's turn follows it. -/
theorem everyStepAnswersANextState : Obligations.EveryStepAnswersANextState := by
  intro s
  obtain ⟨t, h⟩ := cycle_answers_next s
  exact ⟨hostTurn t, step_of_cycle h⟩

/-- Settles O6: the two bytes are the fetched word, and the cycle executes what it decodes to. -/
theorem stepRunsTheDecodedInstruction : Obligations.StepRunsTheDecodedInstruction := by
  intro s i hs hp _ hd
  refine ⟨s.advancePc_pc_toNat hp, rfl, ?_⟩
  obtain ⟨t, ht⟩ := exec_answers_next i s.advancePc
  have hc : cycle s = .next t := (cycle_of_decoded hs (s.fetch_eq_some hp) (decodeWord_of_decode hd)).trans ht
  exact ⟨t, ht, hc, step_of_cycle hc⟩

/-- Settles O9: the word at such a pc is not fetched, and the halt changes the status alone. -/
theorem fetchOutOfBoundsHalts : Obligations.FetchOutOfBoundsHalts :=
  fun s hs hp => ⟨_, cycle_of_pc_out_of_bounds hs hp, .of_raiseHalt s _⟩

/-- Settles O10: a halted core's cycle is the identity, so its step is the host's turn. -/
theorem haltedStepIsOnlyTheHostsTurn : Obligations.HaltedStepIsOnlyTheHostsTurn :=
  fun _ _ hs => ⟨cycle_of_halted hs, step_of_cycle (cycle_of_halted hs)⟩

/-- Settles O13: by induction on the list, each tick counts down once and only a consume clears the flag. -/
theorem hostOperationsOnlyTickAndConsume : Obligations.HostOperationsOnlyTickAndConsume :=
  fun ops s =>
    ⟨(hostEffects_timers ops s).1, (hostEffects_timers ops s).2, hostEffects_needsRedraw_iff ops s,
      .of_hostEffects ops s⟩

/-- Settles O14: the turn is its operations and then the inputs, from the script or free at its end. -/
theorem hostTurnFollowsTheScript : Obligations.HostTurnFollowsTheScript :=
  ⟨fun _ _ _ h => hostTurn_of_script_cons h, fun _ h => hostTurn_of_script_nil h⟩

/-- Settles O16: each read answers a field, the code is the cause's number, and the screen is answered pixel by pixel. -/
theorem hostReadsAnswerTheState : Obligations.HostReadsAnswerTheState := by
  intro s
  refine ⟨rfl, rfl, rfl, ?_, rfl, congrArg Status.code, congrArg Status.code, congrArg Status.code,
    congrArg Status.code, fun _ => congrArg Status.code, fun _ => congrArg Status.code, s.fb, rfl, fun x y hx hy => ?_⟩
  · rw [← s.soundActive_iff]
    exact ⟨fun h => HostAnswer.soundActive.inj h, fun h => congrArg HostAnswer.soundActive h⟩
  · exact ⟨s.fb.bit_flat_index y hx, s.fb.pixel_eq_getLsbD hx hy⟩

/-- Settles O18: init stores the program at 0x200 of the reset memory, which is zero from 80 on. -/
theorem loadCopiesTheProgramTo0x200 : Obligations.LoadCopiesTheProgramTo0x200 := by
  refine fun program => ⟨fun hlen => ⟨_, init_of_length_le hlen, fun k hk => ?_, fun a ha _ => ?_⟩, init_of_length_gt⟩
  · rw [readByte_of_init, if_pos (by omega), Nat.add_sub_cancel_left, List.getD_eq_getElem _ _ hk]
  · rw [readByte_of_init, if_neg (by omega), initialByte_of_ge (by omega)]

/-- Settles O19: init is the reset state with the program stored, and below 0x200 it reads as at reset. -/
theorem resetHoldsTheTabledValues : Obligations.ResetHoldsTheTabledValues := by
  intro program s h
  obtain rfl := eq_storeBytes_of_init h
  refine ⟨fun r => ?_, rfl, rfl, rfl, rfl, Framebuffer.pixel_clear, rfl, rfl, ?_, fun a h80 ha => ?_⟩
  · simp [State.reg, State.reset]
  · have hfont : (List.range 80).map (State.reset.storeBytes 0x200 program).readByte = (List.range 80).map initialByte :=
      List.map_congr_left fun a ha => readByte_of_init_below program (by have := List.mem_range.1 ha; omega)
    rw [hfont]
    rfl
  · rw [readByte_of_init_below program ha, initialByte_of_ge h80]

end Sys2Proof.Proofs
end

section
/-! PROOF. Jumps, call, return and skips (spec 41_control_flow.md). -/

namespace Sys2Proof.Machine

/-! ## The call stack -/

theorem exec_call_of_room (nnn : Addr) {s : State} (h : s.sp < 16) :
    exec (.call nnn) s = .next ((s.setStack (s.pc :: s.stack)).setPc (addrOperand nnn)) := by
  rw [exec, execCall, s.push_eq_some s.pc h]

theorem exec_call_of_full (nnn : Addr) {s : State} (h : 16 ≤ s.sp) :
    exec (.call nnn) s = .next (s.raiseHalt .stackOverflow) := by
  rw [exec, execCall, s.push_eq_none s.pc h]

theorem exec_ret_of_cons {s : State} {w : Word} {rest : List Word} (h : s.stack = w :: rest) :
    exec .ret s = .next ((s.setStack rest).setPc w) := by
  rw [exec, execRet, s.pop_cons w rest h]

theorem exec_ret_of_nil {s : State} (h : s.stack = []) : exec .ret s = .next (s.raiseHalt .stackUnderflow) := by
  rw [exec, execRet, s.pop_nil h]

/-- What 00EE can do. -/
theorem exec_ret_cases {s t : State} (h : exec .ret s = .next t) :
    (s.stack = [] ∧ t = s.raiseHalt .stackUnderflow) ∨
      ∃ w rest, s.stack = w :: rest ∧ t = (s.setStack rest).setPc w := by
  cases hst : s.stack with
  | nil => exact .inl ⟨rfl, Host.Outcome.next.inj (h.symm.trans (exec_ret_of_nil hst))⟩
  | cons w rest => exact .inr ⟨w, rest, rfl, Host.Outcome.next.inj (h.symm.trans (exec_ret_of_cons hst))⟩

/-- What 2nnn can do. -/
theorem exec_call_cases {nnn : Addr} {s t : State} (h : exec (.call nnn) s = .next t) :
    (16 ≤ s.sp ∧ t = s.raiseHalt .stackOverflow) ∨
      (s.sp < 16 ∧ t = (s.setStack (s.pc :: s.stack)).setPc (addrOperand nnn)) := by
  by_cases hsp : s.sp < 16
  · exact .inr ⟨hsp, Host.Outcome.next.inj (h.symm.trans (exec_call_of_room nnn hsp))⟩
  · have hfull : 16 ≤ s.sp := Nat.not_lt.1 hsp
    exact .inl ⟨hfull, Host.Outcome.next.inj (h.symm.trans (exec_call_of_full nnn hfull))⟩

/-! ## Jump targets -/

theorem byteOffset_toNat (b : Byte) : (byteOffset b).toNat = b.toNat :=
  BitVec.toNat_setWidth_of_le (by decide)

/-- nnn + V0 is at most 0x10FE, so the 16-bit sum is exact (10_state.md R30). -/
theorem addrOperand_add_byteOffset_toNat (nnn : Addr) (b : Byte) :
    (addrOperand nnn + byteOffset b).toNat = nnn.toNat + b.toNat := by
  have := nnn.isLt
  have := b.isLt
  rw [BitVec.toNat_add, addrOperand_toNat, byteOffset_toNat]
  omega

/-! ## Skips -/

theorem State.skipIf_pc (s : State) (taken : Bool) :
    (s.skipIf taken).pc = s.pc + if taken = true then 2#16 else 0#16 := by
  rw [State.skipIf_eq, State.setPc_pc]

theorem State.skipIf_beq_pc (s : State) (a b : Byte) :
    (s.skipIf (a == b)).pc = s.pc + if a.toNat = b.toNat then 2#16 else 0#16 := by
  simp only [State.skipIf_pc, beq_iff_eq, BitVec.toNat_inj]

theorem State.skipIf_bne_pc (s : State) (a b : Byte) :
    (s.skipIf (a != b)).pc = s.pc + if a.toNat = b.toNat then 0#16 else 2#16 := by
  simp only [State.skipIf_pc, bne_iff_ne, ne_eq, ite_not, BitVec.toNat_inj]

theorem State.keySkip_of_le (s : State) {k : Byte} (down : Bool) (h : k.toNat ≤ 15) :
    s.keySkip k down = s.skipIf (s.keyDown k.toNat == down) :=
  if_neg (Nat.not_lt.2 h)

theorem State.keySkip_of_gt (s : State) {k : Byte} (down : Bool) (h : 15 < k.toNat) :
    s.keySkip k down = s.raiseHalt (.badKeyIndex k) :=
  if_pos h

/-- A key-skip skips or not, or halts on an index above 15. -/
theorem State.keySkip_cases (s : State) (k : Byte) (down : Bool) :
    (k.toNat ≤ 15 ∧ s.keySkip k down = s.skipIf (s.keyDown k.toNat == down)) ∨
      (15 < k.toNat ∧ s.keySkip k down = s.raiseHalt (.badKeyIndex k)) := by
  by_cases hk : k.toNat ≤ 15
  · exact .inl ⟨hk, s.keySkip_of_le down hk⟩
  · have hgt : 15 < k.toNat := Nat.not_le.1 hk
    exact .inr ⟨hgt, s.keySkip_of_gt down hgt⟩

end Sys2Proof.Machine

namespace Sys2Proof.Proofs

open Sys2Proof.Machine

/-- Settles O26: both are one write of pc, and neither sum wraps. -/
theorem jumpsSetPc : Obligations.JumpsSetPc :=
  fun nnn s =>
    ⟨⟨_, rfl, addrOperand_toNat nnn, .of_setPc s _⟩,
      ⟨_, rfl, addrOperand_add_byteOffset_toNat nnn (s.reg 0), .of_setPc s _⟩⟩

/-- Settles O27: the push succeeds, and the jump follows it. -/
theorem callPushesTheReturnAddress : Obligations.CallPushesTheReturnAddress :=
  fun nnn s h => ⟨_, exec_call_of_room nnn h, addrOperand_toNat nnn, rfl, rfl, .of_setStack_setPc s _ _⟩

/-- Settles O28: the pop succeeds, and pc receives its entry. -/
theorem returnPopsIntoPc : Obligations.ReturnPopsIntoPc :=
  fun s _ _ h => ⟨_, exec_ret_of_cons h, rfl, rfl, .of_setStack_setPc s _ _⟩

/-- Settles O29: a push on 16 entries and a pop of none raise their halts. -/
theorem stackBoundsHalt : Obligations.StackBoundsHalt :=
  ⟨fun nnn s h => ⟨_, exec_call_of_full nnn h.ge, .of_raiseHalt s _⟩,
    fun s h => ⟨_, exec_ret_of_nil (List.length_eq_zero_iff.1 h), .of_raiseHalt s _⟩⟩

/-- Settles O30: the entry that the call pushed is the one the return pops. -/
theorem returnUndoesCall : Obligations.ReturnUndoesCall := by
  intro nnn s t u hsp hcall hstack
  obtain rfl := Host.Outcome.next.inj ((exec_call_of_room nnn hsp).symm.trans hcall)
  exact ⟨_, exec_ret_of_cons hstack, rfl, rfl, rfl⟩

/-- Settles O31: each compare decides whether pc gets its additional 2. -/
theorem skipsCompareAndAdvance : Obligations.SkipsCompareAndAdvance :=
  fun _ _ _ s =>
    ⟨⟨_, rfl, .of_skipIf s _, s.skipIf_beq_pc _ _⟩, ⟨_, rfl, .of_skipIf s _, s.skipIf_bne_pc _ _⟩,
      ⟨_, rfl, .of_skipIf s _, s.skipIf_beq_pc _ _⟩, ⟨_, rfl, .of_skipIf s _, s.skipIf_bne_pc _ _⟩⟩

/-- Settles O32: on a key index up to 15 a key-skip is a skip on the level of that key. -/
theorem keySkipsTestTheKey : Obligations.KeySkipsTestTheKey := by
  intro x s h
  refine ⟨⟨_, congrArg Host.Outcome.next (s.keySkip_of_le true h), .of_skipIf s _, ?_⟩,
    ⟨_, congrArg Host.Outcome.next (s.keySkip_of_le false h), .of_skipIf s _, ?_⟩⟩
  · rw [State.skipIf_pc, State.keyDown, beq_true]
  · rw [State.skipIf_pc, State.keyDown]
    cases s.keys.getLsbD (s.reg x).toNat <;> rfl

/-- Settles O33: above 15 the key-skip raises its halt. -/
theorem keySkipOnABadIndexHalts : Obligations.KeySkipOnABadIndexHalts :=
  fun _ s h =>
    ⟨⟨_, congrArg Host.Outcome.next (s.keySkip_of_gt true h), .of_raiseHalt s _⟩,
      ⟨_, congrArg Host.Outcome.next (s.keySkip_of_gt false h), .of_raiseHalt s _⟩⟩

end Sys2Proof.Proofs
end

section
/-! PROOF. Register writes and the ALU (spec 42_alu.md), and the index register (43_index_memory.md R240 to R242): each
result as a number. -/

namespace Sys2Proof.Machine

theorem State.reg_setReg_self (s : State) (x : Reg) (w : Byte) : (s.setReg x w).reg x = w := by
  rw [State.reg_setReg, if_pos rfl]

theorem State.reg_setResultAndFlag_flag (s : State) (x : Reg) (w : Byte) (b : Bool) :
    (s.setResultAndFlag x w b).reg 15 = flagByte b := by
  rw [State.reg_setResultAndFlag, if_pos rfl]

theorem State.reg_setResultAndFlag_result (s : State) {x : Reg} (w : Byte) (b : Bool) (hx : x ≠ 15) :
    (s.setResultAndFlag x w b).reg x = w := by
  rw [State.reg_setResultAndFlag, if_neg hx, if_pos rfl]

/-! ## Results and flags as numbers -/

theorem carryOut_toNat (a b : Byte) : (flagByte (carryOut a b)).toNat = if a.toNat + b.toNat > 255 then 1 else 0 := by
  rw [flagByte_toNat, carryOut]
  simp only [decide_eq_true_eq]

theorem sum_toNat_add_carry (a b : Byte) :
    (trunc8 (a.toNat + b.toNat)).toNat + 256 * (flagByte (carryOut a b)).toNat = a.toNat + b.toNat := by
  have := a.isLt
  have := b.isLt
  rw [carryOut_toNat, BitVec.toNat_ofNat]
  split <;> omega

theorem notBorrow_toNat (a b : Byte) : (flagByte (notBorrow a b)).toNat = if a.toNat ≥ b.toNat then 1 else 0 := by
  rw [flagByte_toNat, notBorrow]
  simp only [decide_eq_true_eq]

/-- Result + subtrahend = minuend + 256 · borrow (R198, R200). -/
theorem difference_toNat_add_subtrahend (a b : Byte) :
    (a - b).toNat + b.toNat = a.toNat + 256 * (1 - (flagByte (notBorrow a b)).toNat) := by
  have := a.isLt
  have := b.isLt
  rw [notBorrow_toNat, BitVec.toNat_sub]
  split <;> omega

theorem shiftedOutLow_toNat (a : Byte) : (flagByte (shiftedOutLow a)).toNat = a.toNat % 2 := by
  rw [flagByte_toNat, shiftedOutLow_eq]
  simp only [decide_eq_true_eq]
  split <;> omega

theorem shiftedOutHigh_toNat (a : Byte) : (flagByte (shiftedOutHigh a)).toNat = a.toNat / 128 := by
  have := a.isLt
  rw [flagByte_toNat, shiftedOutHigh_eq]
  simp only [decide_eq_true_eq]
  split <;> omega

theorem shiftRight_toNat_add_out (a : Byte) :
    2 * (a >>> 1).toNat + (flagByte (shiftedOutLow a)).toNat = a.toNat := by
  rw [shiftedOutLow_toNat, BitVec.toNat_ushiftRight, Nat.shiftRight_one]
  omega

theorem shiftLeft_toNat_add_out (a : Byte) :
    (a <<< 1).toNat + 256 * (flagByte (shiftedOutHigh a)).toNat = 2 * a.toNat := by
  have := a.isLt
  rw [shiftedOutHigh_toNat, BitVec.toNat_shiftLeft, Nat.shiftLeft_eq]
  omega

theorem glyphAddress_toNat (b : Byte) : (glyphAddress b).toNat = 5 * (b.toNat % 16) := by
  rw [glyphAddress, fontBase, BitVec.toNat_ofNat]
  omega

end Sys2Proof.Machine

namespace Sys2Proof.Proofs

open Sys2Proof.Machine

/-- Settles O35: one register write of the reduced sum. -/
theorem addImmediateWritesNoFlag : Obligations.AddImmediateWritesNoFlag :=
  fun x kk s => ⟨_, rfl, by rw [State.reg_setReg_self, BitVec.toNat_ofNat], .of_setReg s x _⟩

/-- Settles O36: each is one register write, bit by bit what its name says. -/
theorem copyAndLogicWriteOnlyVx : Obligations.CopyAndLogicWriteOnlyVx := by
  refine fun x y s => ⟨⟨_, rfl, s.reg_setReg_self x _, .of_setReg s x _⟩, ⟨_, rfl, .of_setReg s x _, fun k => ?_⟩,
    ⟨_, rfl, .of_setReg s x _, fun k => ?_⟩, ⟨_, rfl, .of_setReg s x _, fun k => ?_⟩⟩
  · rw [State.reg_setReg_self, BitVec.getLsbD_or]
  · rw [State.reg_setReg_self, BitVec.getLsbD_and]
  · rw [State.reg_setReg_self, BitVec.getLsbD_xor]

/-- Settles O37: the flag is the carry of the exact sum, and lands last. -/
theorem addWithCarryIsExact : Obligations.AddWithCarryIsExact := by
  refine fun x y s => ⟨_, rfl, .of_setResultAndFlag s x _ _, ?_, fun hx => ?_⟩
  · rw [State.reg_setResultAndFlag_flag, carryOut_toNat]
  · rw [State.reg_setResultAndFlag_flag, State.reg_setResultAndFlag_result s _ _ hx, sum_toNat_add_carry]

/-- Settles O38: both differences in one equation, with the operands in either order. -/
theorem subtractionsAreExactWithNotBorrow : Obligations.SubtractionsAreExactWithNotBorrow := by
  refine fun x y s => ⟨⟨_, rfl, .of_setResultAndFlag s x _ _, ?_, fun hx => ?_⟩,
    ⟨_, rfl, .of_setResultAndFlag s x _ _, ?_, fun hx => ?_⟩⟩
  · rw [State.reg_setResultAndFlag_flag, notBorrow_toNat]
  · rw [State.reg_setResultAndFlag_flag, State.reg_setResultAndFlag_result s _ _ hx, difference_toNat_add_subtrahend]
  · rw [State.reg_setResultAndFlag_flag, notBorrow_toNat]
  · rw [State.reg_setResultAndFlag_flag, State.reg_setResultAndFlag_result s _ _ hx, difference_toNat_add_subtrahend]

/-- Settles O39: the bit shifted out is the flag, and the result with it is the old value. -/
theorem shiftsMoveTheOutgoingBitToVF : Obligations.ShiftsMoveTheOutgoingBitToVF := by
  refine fun x _ s => ⟨⟨_, rfl, .of_setResultAndFlag s x _ _, ?_, fun hx => ?_⟩,
    ⟨_, rfl, .of_setResultAndFlag s x _ _, ?_, fun hx => ?_⟩⟩
  · rw [State.reg_setResultAndFlag_flag, shiftedOutLow_toNat]
  · rw [State.reg_setResultAndFlag_flag, State.reg_setResultAndFlag_result s _ _ hx, shiftRight_toNat_add_out]
  · rw [State.reg_setResultAndFlag_flag, shiftedOutHigh_toNat]
  · rw [State.reg_setResultAndFlag_flag, State.reg_setResultAndFlag_result s _ _ hx, shiftLeft_toNat_add_out]

/-- Settles O40: one register write of the step's random byte under the mask. -/
theorem randomIsTheInputMasked : Obligations.RandomIsTheInputMasked := by
  rintro x kk _ s rfl
  exact ⟨_, rfl, .of_setReg s x _, fun k => by rw [State.reg_setReg_self, BitVec.getLsbD_and]⟩

/-- Settles O41: each is one write of I. -/
theorem indexInstructionsSetI : Obligations.IndexInstructionsSetI :=
  fun nnn x s =>
    ⟨⟨_, rfl, addrOperand_toNat nnn, .of_setI s _⟩, ⟨_, rfl, BitVec.toNat_ofNat _ _, .of_setI s _⟩,
      ⟨_, rfl, glyphAddress_toNat (s.reg x), .of_setI s _⟩⟩

end Sys2Proof.Proofs
end

section
/-! PROOF. Loads and stores from I (spec 43_index_memory.md, 20_memory.md R66, R67, R71, R78). -/

namespace Sys2Proof.Machine

/-- A byte inside a store reads as the byte stored there. -/
theorem State.readByte_storeBytes_add (s : State) (a : Nat) {k : Nat} {ws : List Byte} (h : k < ws.length) :
    (s.storeBytes a ws).readByte (a + k) = ws.getD k 0#8 := by
  rw [State.readByte_storeBytes, if_pos (by omega), Nat.add_sub_cancel_left]

theorem State.readByte_storeRegs (s : State) (x : Reg) {r : Reg} (a : Nat) (h : r ≤ x) :
    (s.storeBytes a (s.regsUpTo x)).readByte (a + r.val) = s.reg r := by
  rw [State.readByte_storeBytes_add s a (by rw [s.regsUpTo_length]; exact Nat.lt_succ_of_le h), s.regsUpTo_getD x r h]

section
variable (x : Reg) (s : State)

theorem exec_ldMemVx_inBounds (h : s.I.toNat + x.val < 4096) :
    exec (.ldMemVx x) s = .next (s.storeBytes s.I.toNat (s.regsUpTo x)) :=
  congrArg Host.Outcome.next (s.accessOrHalt_inBounds _ _ (.inr h))

theorem exec_ldVxMem_inBounds (h : s.I.toNat + x.val < 4096) :
    exec (.ldVxMem x) s = .next (s.loadRegsUpTo x s.I.toNat) :=
  congrArg Host.Outcome.next (s.accessOrHalt_inBounds _ _ (.inr h))

theorem exec_ldB_inBounds (h : s.I.toNat + 2 < 4096) :
    exec (.ldB x) s = .next (s.storeBytes s.I.toNat (decimalDigits (s.reg x))) :=
  congrArg Host.Outcome.next (s.accessOrHalt_inBounds _ _ (.inr h))

end

/-- A checked access that reaches 4096 is a halt, with the lowest bad address (20_memory.md R66). -/
theorem HaltsWith.of_accessOrHalt (s : State) {count : Nat} (done : State) (h0 : 0 < count)
    (h : 4096 ≤ s.I.toNat + (count - 1)) :
    HaltsWith (.outOfBoundsAccess (max s.I.toNat 4096)) s (s.accessOrHalt count done) := by
  rw [s.accessOrHalt_outOfBounds count done h0 (by omega)]
  exact .of_raiseHalt s _

theorem decimalDigits_spec (b : Byte) :
    ((decimalDigits b).getD 0 0#8).toNat ≤ 9 ∧ ((decimalDigits b).getD 1 0#8).toNat ≤ 9 ∧
      ((decimalDigits b).getD 2 0#8).toNat ≤ 9 ∧
      100 * ((decimalDigits b).getD 0 0#8).toNat + 10 * ((decimalDigits b).getD 1 0#8).toNat +
        ((decimalDigits b).getD 2 0#8).toNat = b.toNat := by
  have := b.isLt
  simp only [decimalDigits, List.getD_cons_zero, List.getD_cons_succ, BitVec.toNat_ofNat]
  omega

end Sys2Proof.Machine

namespace Sys2Proof.Proofs

open Sys2Proof.Machine

/-- Settles O42: the three bytes stored are the digits of Vx. -/
theorem bcdStoresTheDecimalDigits : Obligations.BcdStoresTheDecimalDigits := by
  intro x s h
  obtain ⟨h0, h1, h2, hsum⟩ := decimalDigits_spec (s.reg x)
  have hread : ∀ k, k < 3 → (s.storeBytes s.I.toNat (decimalDigits (s.reg x))).readByte (s.I.toNat + k) =
      (decimalDigits (s.reg x)).getD k 0#8 := fun k hk => s.readByte_storeBytes_add _ hk
  rw [← hread 0 (by decide)] at h0 hsum
  rw [← hread 1 (by decide)] at h1 hsum
  rw [← hread 2 (by decide)] at h2 hsum
  exact ⟨_, exec_ldB_inBounds x s h, h0, h1, h2, hsum, .of_storeBytes s s.I.toNat (decimalDigits (s.reg x)),
    .of_storeBytes s _ _⟩

/-- Settles O43: the bytes stored are V0 to Vx in order. -/
theorem storeRegistersWritesV0ToVx : Obligations.StoreRegistersWritesV0ToVx := by
  refine fun x s h => ⟨_, exec_ldMemVx_inBounds x s h, fun r hr => s.readByte_storeRegs x _ hr, ?_, .of_storeBytes s _ _⟩
  rw [← s.regsUpTo_length x]
  exact .of_storeBytes s _ _

/-- Settles O44: the registers up to x are the bytes from I, the others stay. -/
theorem loadRegistersReadsV0ToVx : Obligations.LoadRegistersReadsV0ToVx := by
  refine fun x s h => ⟨_, exec_ldVxMem_inBounds x s h, fun r hr => ?_, fun r hr => ?_, .of_loadRegsUpTo s x _⟩
  · rw [s.reg_loadRegsUpTo, if_pos hr]
  · rw [s.reg_loadRegsUpTo, if_neg (not_le_of_gt hr)]

/-- Settles O45: the check comes before every write, for each of the four. -/
theorem dataAccessOutOfBoundsHalts : Obligations.DataAccessOutOfBoundsHalts :=
  ⟨fun _ s h => ⟨_, rfl, .of_accessOrHalt s _ (by decide) h⟩,
    fun x s h => ⟨⟨_, rfl, .of_accessOrHalt s _ (Nat.succ_pos x) h⟩, ⟨_, rfl, .of_accessOrHalt s _ (Nat.succ_pos x) h⟩⟩,
    fun _ _ _ s h0 h => ⟨_, rfl, .of_accessOrHalt s _ h0 h⟩⟩

/-- Settles O12: the two bytes that the next fetch reads are the first two that were stored. -/
theorem storedWordIsFetchedNext : Obligations.StoredWordIsFetchedNext := by
  intro x s hx hpc hI
  have hpcI : (s.storeBytes s.I.toNat (s.regsUpTo x)).pc.toNat = s.I.toNat := congrArg BitVec.toNat hpc
  refine ⟨_, exec_ldMemVx_inBounds x s hI, _, State.fetch_eq_some _ (by omega), ?_⟩
  have h0 := s.readByte_storeRegs x s.I.toNat (r := 0) (Fin.zero_le x)
  have h1 := s.readByte_storeRegs x s.I.toNat (r := 1) hx
  rw [wordOfBytes_toNat, hpcI, ← h0, ← h1]
  rfl

end Sys2Proof.Proofs
end

section
/-! PROOF. The timer and keypad instructions (spec 45_timers_keypad.md). -/

namespace Sys2Proof.Machine

theorem exists_keyDown_of_ne_zero {keys : BitVec 16} (h : keys ≠ 0#16) : ∃ k, k < 16 ∧ keys.getLsbD k = true := by
  by_contra hnone
  refine h (BitVec.eq_of_getLsbD_eq fun k hk => ?_)
  rw [BitVec.getLsbD_zero, ← Bool.not_eq_true]
  exact fun hdown => hnone ⟨k, hk, hdown⟩

/-- With a key down there is a lowest one. -/
theorem State.lowestKeyDown_of_ne_zero {s : State} (h : s.keys ≠ 0#16) :
    ∃ k, s.lowestKeyDown = some k ∧ k < 16 ∧ s.keys.getLsbD k = true ∧ ∀ j, j < k → s.keys.getLsbD j = false := by
  obtain ⟨j, hj, hdown⟩ := exists_keyDown_of_ne_zero h
  have hsome : s.lowestKeyDown.isSome = true := List.find?_isSome.2 ⟨j, List.mem_range.2 hj, hdown⟩
  obtain ⟨k, hk⟩ := Option.isSome_iff_exists.1 hsome
  obtain ⟨hkdown, hk16, hlow⟩ := List.find?_range_eq_some.1 hk
  exact ⟨k, hk, List.mem_range.1 hk16, hkdown, fun j hj => by simpa [State.keyDown] using hlow j hj⟩

theorem exec_ldVxK_of_lowestKeyDown (x : Reg) {s : State} {k : Nat} (h : s.lowestKeyDown = some k) :
    exec (.ldVxK x) s = .next (s.setReg x (trunc8 k)) := by
  rw [exec, execLdVxK, h]

theorem exec_ldVxK_of_lowestKeyDown_none (x : Reg) {s : State} (h : s.lowestKeyDown = none) :
    exec (.ldVxK x) s = .next (s.setPc (s.pc - 2#16)) := by
  rw [exec, execLdVxK, h]

/-- What Fx0A can do. -/
theorem exec_ldVxK_cases {x : Reg} {s t : State} (h : exec (.ldVxK x) s = .next t) :
    (s.lowestKeyDown = none ∧ t = s.setPc (s.pc - 2#16)) ∨
      ∃ k, s.lowestKeyDown = some k ∧ t = s.setReg x (trunc8 k) := by
  cases hk : s.lowestKeyDown with
  | none => exact .inl ⟨rfl, Host.Outcome.next.inj (h.symm.trans (exec_ldVxK_of_lowestKeyDown_none x hk))⟩
  | some k => exact .inr ⟨k, rfl, Host.Outcome.next.inj (h.symm.trans (exec_ldVxK_of_lowestKeyDown x hk))⟩

end Sys2Proof.Machine

namespace Sys2Proof.Proofs

open Sys2Proof.Machine

/-- Settles O52: each is one write of its register. -/
theorem timerInstructionsMoveTheTimers : Obligations.TimerInstructionsMoveTheTimers :=
  fun x s =>
    ⟨⟨_, rfl, s.reg_setReg_self x _, .of_setReg s x _⟩, ⟨_, rfl, rfl, .of_setDT s _⟩, ⟨_, rfl, rfl, .of_setST s _⟩⟩

/-- Settles O53: the search from key 0 upward finds the lowest key down, whose number fits a byte. -/
theorem keyWaitTakesTheLowestKey : Obligations.KeyWaitTakesTheLowestKey := by
  intro x s h
  obtain ⟨k, hk, hk16, hdown, hlow⟩ := State.lowestKeyDown_of_ne_zero h
  refine ⟨_, k, exec_ldVxK_of_lowestKeyDown x hk, hk16, hdown, hlow, ?_, .of_setReg s x _⟩
  rw [State.reg_setReg_self, BitVec.toNat_ofNat]
  omega

end Sys2Proof.Proofs
end

section
/-! PROOF. What each instruction stores (spec 20_memory.md R72) and which halts it raises (60_exceptions.md R320, R321). -/

namespace Sys2Proof.Machine

/-! ## Stores -/

theorem KeepsMemoryOutside.of_accessOrHalt {s done : State} {a count : Nat} (k : Nat)
    (h : KeepsMemoryOutside a count s done) : KeepsMemoryOutside a count s (s.accessOrHalt k done) := by
  obtain ⟨-, hd⟩ | ⟨-, -, hh⟩ := s.accessOrHalt_cases k done
  · rwa [hd]
  · rw [hh]
    exact fun _ _ => rfl

/-- Only Fx33 and Fx55 store, each its row's count of bytes from I (20_memory.md R72). -/
theorem exec_keepsMemoryOutside {i : Instr} {s t : State} (h : exec i s = .next t) :
    KeepsMemoryOutside s.I.toNat (dataBytesStored i) s t := by
  cases i with
  | ldB x => cases h; exact .of_accessOrHalt 3 (.of_storeBytes s s.I.toNat (decimalDigits (s.reg x)))
  | ldMemVx x =>
    cases h
    refine .of_accessOrHalt _ ?_
    rw [dataBytesStored, ← s.regsUpTo_length x]
    exact .of_storeBytes s _ _
  | _ => exact fun b _ => (exec_frame h).memory (by simp [changedParts]) b

/-! ## Halts -/

/-- `Raises s i c`: the instruction may raise the cause in `s`, with the condition that the spec gives it
(60_exceptions.md R320, R321). -/
inductive Raises (s : State) : Instr → HaltCause → Prop where
  | ret (h : s.stack = []) : Raises s .ret .stackUnderflow
  | call (nnn : Addr) (h : 16 ≤ s.sp) : Raises s (.call nnn) .stackOverflow
  | drw (x y : Reg) (n : Nat) : Raises s (.drw x y n) (.outOfBoundsAccess (max s.I.toNat 4096))
  | ldB (x : Reg) : Raises s (.ldB x) (.outOfBoundsAccess (max s.I.toNat 4096))
  | ldMemVx (x : Reg) : Raises s (.ldMemVx x) (.outOfBoundsAccess (max s.I.toNat 4096))
  | ldVxMem (x : Reg) : Raises s (.ldVxMem x) (.outOfBoundsAccess (max s.I.toNat 4096))
  | skp (x : Reg) (h : 15 < (s.reg x).toNat) : Raises s (.skp x) (.badKeyIndex (s.reg x))
  | sknp (x : Reg) (h : 15 < (s.reg x).toNat) : Raises s (.sknp x) (.badKeyIndex (s.reg x))

theorem ne_halted_of_status_eq {s t : State} {c : HaltCause} (hs : s.status = .running) (h : t.status = s.status) :
    t.status ≠ .halted c := by
  simp [h, hs]

theorem State.accessOrHalt_halted {s done : State} {count : Nat} {c : HaltCause} (hs : s.status = .running)
    (hd : done.status = s.status) (h : (s.accessOrHalt count done).status = .halted c) :
    c = .outOfBoundsAccess (max s.I.toNat 4096) := by
  obtain ⟨-, heq⟩ | ⟨-, -, heq⟩ := s.accessOrHalt_cases count done <;> rw [heq] at h
  · exact absurd h (ne_halted_of_status_eq hs hd)
  · exact (Status.halted.inj h).symm

theorem State.skipIf_status (s : State) (b : Bool) : (s.skipIf b).status = s.status :=
  (Frame.of_skipIf s b).status (by simp)

theorem State.keySkip_halted {s : State} {k : Byte} {down : Bool} {c : HaltCause} (hs : s.status = .running)
    (h : (s.keySkip k down).status = .halted c) : c = .badKeyIndex k ∧ 15 < k.toNat := by
  obtain ⟨-, heq⟩ | ⟨hk, heq⟩ := s.keySkip_cases k down <;> rw [heq] at h
  · exact absurd h (ne_halted_of_status_eq hs (s.skipIf_status _))
  · exact ⟨(Status.halted.inj h).symm, hk⟩

/-- An instruction that ends Halted raised a cause of its own; one whose frame keeps the status raises none. -/
theorem exec_raises {i : Instr} {s t : State} {c : HaltCause} (hs : s.status = .running) (h : exec i s = .next t)
    (ht : t.status = .halted c) : Raises s i c := by
  cases i with
  | ret =>
    obtain ⟨hst, rfl⟩ | ⟨w, rest, -, rfl⟩ := exec_ret_cases h
    · exact Status.halted.inj ht ▸ .ret hst
    · exact absurd ht (ne_halted_of_status_eq hs rfl)
  | call nnn =>
    obtain ⟨hsp, rfl⟩ | ⟨-, rfl⟩ := exec_call_cases h
    · exact Status.halted.inj ht ▸ .call nnn hsp
    · exact absurd ht (ne_halted_of_status_eq hs rfl)
  | skp x =>
    cases h
    obtain ⟨rfl, hk⟩ := State.keySkip_halted hs ht
    exact .skp x hk
  | sknp x =>
    cases h
    obtain ⟨rfl, hk⟩ := State.keySkip_halted hs ht
    exact .sknp x hk
  | drw x y n => cases h; exact State.accessOrHalt_halted hs (s.drawn_status _ _) ht ▸ .drw x y n
  | ldB x => cases h; exact State.accessOrHalt_halted hs (s.storeBytes_status _ _) ht ▸ .ldB x
  | ldMemVx x => cases h; exact State.accessOrHalt_halted hs (s.storeBytes_status _ _) ht ▸ .ldMemVx x
  | ldVxMem x => cases h; exact State.accessOrHalt_halted hs (s.loadRegsUpTo_status _ _) ht ▸ .ldVxMem x
  | _ => exact absurd ht (ne_halted_of_status_eq hs ((exec_frame h).status (by simp [changedParts])))

end Sys2Proof.Machine

namespace Sys2Proof.Proofs

open Sys2Proof.Machine

/-- Settles O23: the frame of every instruction, and the two that store keep every byte outside their row. -/
theorem everyInstructionKeepsItsFrame : Obligations.EveryInstructionKeepsItsFrame :=
  fun _ _ _ h => ⟨exec_frame h, exec_keepsMemoryOutside h⟩

/-- Settles O22: the causes an instruction raises, read off one by one. -/
theorem eachHaltHasItsInstructions : Obligations.EachHaltHasItsInstructions := by
  intro i s t c hs h ht
  cases exec_raises hs h ht with
  | ret => exact .inl ⟨rfl, rfl⟩
  | call nnn => exact .inr (.inl ⟨⟨nnn, rfl⟩, rfl⟩)
  | drw x y n => exact .inr (.inr (.inl ⟨.inl ⟨x, y, n, rfl⟩, rfl⟩))
  | ldB x => exact .inr (.inr (.inl ⟨.inr (.inl ⟨x, rfl⟩), rfl⟩))
  | ldMemVx x => exact .inr (.inr (.inl ⟨.inr (.inr (.inl ⟨x, rfl⟩)), rfl⟩))
  | ldVxMem x => exact .inr (.inr (.inl ⟨.inr (.inr (.inr ⟨x, rfl⟩)), rfl⟩))
  | skp x hk => exact .inr (.inr (.inr ⟨x, .inl rfl, rfl, hk⟩))
  | sknp x hk => exact .inr (.inr (.inr ⟨x, .inr rfl, rfl, hk⟩))

end Sys2Proof.Proofs
end

section
/-! PROOF. What an instruction does not read: memory outside its row (spec 20_memory.md R72), and what the host observes
(40_core_cycle.md R137). Each is a commuting lemma: the instruction on the changed state is the changed result. -/

namespace Sys2Proof.Machine

/-! ## Memory that an instruction does not read -/

/-- The same state on another memory. -/
def State.withMem (s : State) (m : Memory) : State := { s with mem := m }

theorem State.accessOrHalt_withMem (s done : State) (m : Memory) (count : Nat) :
    (s.withMem m).accessOrHalt count (done.withMem m) = (s.accessOrHalt count done).withMem m := by
  obtain ⟨hin, hd⟩ | ⟨h0, hout, hh⟩ := s.accessOrHalt_cases count done
  · rw [hd, (s.withMem m).accessOrHalt_inBounds count _ hin]
  · rw [hh, (s.withMem m).accessOrHalt_outOfBounds count _ h0 hout]
    rfl

theorem State.skipIf_withMem (s : State) (m : Memory) (b : Bool) : (s.withMem m).skipIf b = (s.skipIf b).withMem m := by
  cases b <;> rfl

theorem State.keySkip_withMem (s : State) (m : Memory) (k : Byte) (down : Bool) :
    (s.withMem m).keySkip k down = (s.keySkip k down).withMem m := by
  obtain ⟨hk, heq⟩ | ⟨hk, heq⟩ := s.keySkip_cases k down
  · rw [heq, (s.withMem m).keySkip_of_le down hk]
    exact s.skipIf_withMem m _
  · rw [heq, (s.withMem m).keySkip_of_gt down hk]
    rfl

theorem State.drawn_withMem (s : State) (m : Memory) (b : Blit) (n : Nat) :
    (s.withMem m).drawn b n = (s.drawn b n).withMem m := by
  unfold State.drawn
  split <;> rfl

/-- A sprite's rows depend on the bytes they are read from. -/
theorem Blit.drawRows_congr {m m' : Memory} (x n y a : Nat) (b : Blit)
    (h : ∀ k, k < n → Memory.read m' (a + k) = Memory.read m (a + k)) :
    Blit.drawRows m' x n y a b = Blit.drawRows m x n y a b := by
  induction n generalizing y a b with
  | zero => rfl
  | succ n ih =>
    have hfirst : Memory.read m' a = Memory.read m a := h 0 (Nat.succ_pos n)
    rw [Blit.drawRows, Blit.drawRows, hfirst]
    refine ih (y + 1) (a + 1) _ fun k hk => ?_
    rw [Nat.add_assoc, Nat.add_comm 1 k]
    exact h (k + 1) (by omega)

theorem State.blit_withMem {s : State} {m : Memory} (x y : Reg) {n : Nat}
    (h : ∀ k, k < n → Memory.read m (s.I.toNat + k) = s.readByte (s.I.toNat + k)) :
    (s.withMem m).blit x y n = s.blit x y n :=
  Blit.drawRows_congr _ n _ _ _ h

theorem State.loadRegsUpTo_withMem {s : State} {m : Memory} {x : Reg}
    (h : ∀ k, k < x.val + 1 → Memory.read m (s.I.toNat + k) = s.readByte (s.I.toNat + k)) :
    (s.withMem m).loadRegsUpTo x (s.dataAddress 0) = (s.loadRegsUpTo x (s.dataAddress 0)).withMem m := by
  have hv : ((s.withMem m).loadRegsUpTo x (s.dataAddress 0)).v = (s.loadRegsUpTo x (s.dataAddress 0)).v := by
    refine congrArg Vector.ofFn (funext fun r => ?_)
    split
    · exact h r.val (Nat.lt_succ_of_le ‹_›)
    · rfl
  exact congrArg (fun v => { s with v := v, mem := m }) hv

/-- On another memory that agrees on the bytes it reads, an instruction that stores nothing does the same. -/
theorem exec_withMem {i : Instr} {s t : State} {m : Memory} (h : exec i s = .next t)
    (hread : ∀ k, k < dataBytesRead i → Memory.read m (s.I.toNat + k) = s.readByte (s.I.toNat + k))
    (hstore : .memory ∉ changedParts i) : exec i (s.withMem m) = .next (t.withMem m) := by
  cases i with
  | ldB _ | ldMemVx _ => simp [changedParts] at hstore
  | ret =>
    obtain ⟨hst, rfl⟩ | ⟨w, rest, hst, rfl⟩ := exec_ret_cases h
    · exact exec_ret_of_nil (s := s.withMem m) hst
    · exact exec_ret_of_cons (s := s.withMem m) hst
  | call nnn =>
    obtain ⟨hsp, rfl⟩ | ⟨hsp, rfl⟩ := exec_call_cases h
    · exact exec_call_of_full nnn (s := s.withMem m) hsp
    · exact exec_call_of_room nnn (s := s.withMem m) hsp
  | ldVxK x =>
    obtain ⟨hk, rfl⟩ | ⟨k, hk, rfl⟩ := exec_ldVxK_cases h
    · exact exec_ldVxK_of_lowestKeyDown_none x (s := s.withMem m) hk
    · exact exec_ldVxK_of_lowestKeyDown x (s := s.withMem m) hk
  | seByte _ _ | sneByte _ _ | seReg _ _ | sneReg _ _ => cases h; exact congrArg _ (s.skipIf_withMem m _)
  | skp _ | sknp _ => cases h; exact congrArg _ (s.keySkip_withMem m _ _)
  | drw x y n =>
    cases h
    rw [exec, execDrw, State.blit_withMem x y (n := n) hread, State.drawn_withMem, State.accessOrHalt_withMem]
  | ldVxMem x =>
    cases h
    rw [exec, execLdVxMem]
    exact congrArg _ ((congrArg _ (State.loadRegsUpTo_withMem hread)).trans (State.accessOrHalt_withMem s _ m _))
  | _ => cases h; rfl

/-- An instruction that stores nothing leaves memory as it is, its form included: it does the same on its own memory. -/
theorem exec_mem {i : Instr} {s t : State} (h : exec i s = .next t) (hstore : .memory ∉ changedParts i) :
    t.mem = s.mem := by
  have hsame : exec i s = .next (t.withMem s.mem) := exec_withMem (m := s.mem) h (fun _ _ => rfl) hstore
  have ht : t = t.withMem s.mem := Host.Outcome.next.inj (h.symm.trans hsame)
  rw [ht]
  rfl

/-- The same store on two memories: every byte got the same value in both or was left in both. -/
theorem storeBytes_withMem_cases (s : State) (m : Memory) (a : Nat) (ws : List Byte) (b : Nat) :
    ((s.withMem m).storeBytes a ws).readByte b = (s.storeBytes a ws).readByte b ∨
      (((s.withMem m).storeBytes a ws).readByte b = Memory.read m b ∧
        (s.storeBytes a ws).readByte b = s.readByte b) := by
  rw [State.readByte_storeBytes, State.readByte_storeBytes]
  split
  · exact .inl rfl
  · exact .inr ⟨rfl, rfl⟩

/-- What an instruction does on another memory `m`, where it answers `t` on the memory of `s` (20_memory.md R72). -/
def SameOnMemory (m : Memory) (s t u : State) : Prop :=
  u.withMem t.mem = t ∧
    ∀ a, u.readByte a = t.readByte a ∨ (u.readByte a = Memory.read m a ∧ t.readByte a = s.readByte a)

theorem SameOnMemory.of_mem_eq {m : Memory} {s t : State} (h : t.mem = s.mem) : SameOnMemory m s t (t.withMem m) :=
  ⟨rfl, fun a => .inr ⟨rfl, by rw [State.readByte, h, State.readByte]⟩⟩

theorem SameOnMemory.of_storeBytes (s : State) (m : Memory) (count a : Nat) (ws : List Byte) :
    SameOnMemory m s (s.accessOrHalt count (s.storeBytes a ws))
      ((s.withMem m).accessOrHalt count ((s.withMem m).storeBytes a ws)) := by
  obtain ⟨hin, hd⟩ | ⟨h0, hout, hh⟩ := s.accessOrHalt_cases count (s.storeBytes a ws)
  · rw [hd, (s.withMem m).accessOrHalt_inBounds count _ hin]
    exact ⟨rfl, storeBytes_withMem_cases s m a ws⟩
  · rw [hh, (s.withMem m).accessOrHalt_outOfBounds count _ h0 hout]
    exact .of_mem_eq rfl

theorem exec_sameOnMemory {i : Instr} {s t : State} {m : Memory} (h : exec i s = .next t)
    (hread : ∀ k, k < dataBytesRead i → Memory.read m (s.I.toNat + k) = s.readByte (s.I.toNat + k)) :
    ∃ u, exec i (s.withMem m) = .next u ∧ SameOnMemory m s t u := by
  by_cases hstore : .memory ∈ changedParts i
  · cases i with
    | ldB _ | ldMemVx _ => cases h; exact ⟨_, rfl, .of_storeBytes s m _ _ _⟩
    | _ => simp [changedParts] at hstore
  · exact ⟨_, exec_withMem h hread hstore, .of_mem_eq (exec_mem h hstore)⟩

/-! ## Observations that an instruction does not read -/

/-- The same state with other values of what the host observes: UNKNOWN_COUNT, needs_redraw, ST and the status. -/
def State.withObs (s : State) (n : Nat) (b : Bool) (w : Byte) (st : Status) : State :=
  { s with unknownCount := n, needsRedraw := b, ST := w, status := st }

/-- `u` is `t` but for what the host observes, and a change of the status from `s` to `t` is the same in `u`. -/
def SameButObs (n : Nat) (s t u : State) : Prop :=
  ∃ b w st, u = t.withObs n b w st ∧ (t.status ≠ s.status → st = t.status)

section
variable (s : State) (n : Nat) (b : Bool) (w : Byte) (st : Status)

theorem SameButObs.of_raiseHalt (c : HaltCause) :
    SameButObs n s (s.raiseHalt c) ((s.withObs n b w st).raiseHalt c) :=
  ⟨b, w, .halted c, rfl, fun _ => rfl⟩

theorem SameButObs.of_status_eq {t : State} (h : t.status = s.status) : SameButObs n s t (t.withObs n b w st) :=
  ⟨b, w, st, rfl, fun hne => absurd h hne⟩

theorem SameButObs.of_accessOrHalt {done done' : State} (count : Nat) (h : SameButObs n s done done') :
    SameButObs n s (s.accessOrHalt count done) ((s.withObs n b w st).accessOrHalt count done') := by
  obtain ⟨hin, hd⟩ | ⟨h0, hout, hh⟩ := s.accessOrHalt_cases count done
  · rwa [hd, (s.withObs n b w st).accessOrHalt_inBounds count _ hin]
  · rw [hh, (s.withObs n b w st).accessOrHalt_outOfBounds count _ h0 hout]
    exact .of_raiseHalt s n b w st _

theorem SameButObs.of_skipIf (taken : Bool) : SameButObs n s (s.skipIf taken) ((s.withObs n b w st).skipIf taken) := by
  rw [State.skipIf_eq, State.skipIf_eq]
  exact .of_status_eq s n b w st rfl

theorem SameButObs.of_keySkip (k : Byte) (down : Bool) :
    SameButObs n s (s.keySkip k down) ((s.withObs n b w st).keySkip k down) := by
  obtain ⟨hk, heq⟩ | ⟨hk, heq⟩ := s.keySkip_cases k down
  · rw [heq, (s.withObs n b w st).keySkip_of_le down hk]
    exact .of_skipIf s n b w st _
  · rw [heq, (s.withObs n b w st).keySkip_of_gt down hk]
    exact .of_raiseHalt s n b w st _

theorem SameButObs.of_drawn (bl : Blit) (rows : Nat) :
    SameButObs n s (s.drawn bl rows) ((s.withObs n b w st).drawn bl rows) := by
  unfold State.drawn
  split
  · exact .of_status_eq s n b w st rfl
  · exact .of_status_eq s n true w st rfl

end

/-- An instruction does the same whatever the host observes (40_core_cycle.md R137). -/
theorem exec_sameButObs {i : Instr} {s t : State} (h : exec i s = .next t) (n : Nat) (b : Bool) (w : Byte)
    (st : Status) : ∃ u, exec i (s.withObs n b w st) = .next u ∧ SameButObs n s t u := by
  cases i with
  | ret =>
    obtain ⟨hst, rfl⟩ | ⟨v, rest, hst, rfl⟩ := exec_ret_cases h
    · exact ⟨_, exec_ret_of_nil (s := s.withObs n b w st) hst, .of_raiseHalt s n b w st _⟩
    · exact ⟨_, exec_ret_of_cons (s := s.withObs n b w st) hst, .of_status_eq s n b w st rfl⟩
  | call nnn =>
    obtain ⟨hsp, rfl⟩ | ⟨hsp, rfl⟩ := exec_call_cases h
    · exact ⟨_, exec_call_of_full nnn (s := s.withObs n b w st) hsp, .of_raiseHalt s n b w st _⟩
    · exact ⟨_, exec_call_of_room nnn (s := s.withObs n b w st) hsp, .of_status_eq s n b w st rfl⟩
  | ldVxK x =>
    obtain ⟨hk, rfl⟩ | ⟨k, hk, rfl⟩ := exec_ldVxK_cases h
    · exact ⟨_, exec_ldVxK_of_lowestKeyDown_none x (s := s.withObs n b w st) hk, .of_status_eq s n b w st rfl⟩
    · exact ⟨_, exec_ldVxK_of_lowestKeyDown x (s := s.withObs n b w st) hk, .of_status_eq s n b w st rfl⟩
  | seByte _ _ | sneByte _ _ | seReg _ _ | sneReg _ _ => cases h; exact ⟨_, rfl, .of_skipIf s n b w st _⟩
  | skp _ | sknp _ => cases h; exact ⟨_, rfl, .of_keySkip s n b w st _ _⟩
  | drw _ _ _ => cases h; exact ⟨_, rfl, .of_accessOrHalt s n b w st _ (.of_drawn s n b w st _ _)⟩
  | ldB _ | ldMemVx _ | ldVxMem _ =>
    cases h
    exact ⟨_, rfl, .of_accessOrHalt s n b w st _ (.of_status_eq s n b w st rfl)⟩
  | cls => cases h; exact ⟨_, rfl, .of_status_eq s n true w st rfl⟩
  | ldSTVx x => cases h; exact ⟨_, rfl, .of_status_eq s n b (s.reg x) st rfl⟩
  | _ => cases h; exact ⟨_, rfl, .of_status_eq s n b w st rfl⟩

end Sys2Proof.Machine

namespace Sys2Proof.Proofs

open Sys2Proof.Machine

/-- Settles O24: an instruction that stores nothing does the same on the other memory, and a store writes the same
bytes to it. -/
theorem instructionsReadOnlyTheirDataBytes : Obligations.InstructionsReadOnlyTheirDataBytes :=
  fun _ _ _ _ h hread => exec_sameOnMemory h hread

/-- Settles O25: the two results differ in what the host observes alone, the counter is kept by the frame, and a halt
raised in one is raised in the other. -/
theorem instructionsIgnoreTheHostsObservations : Obligations.InstructionsIgnoreTheHostsObservations := by
  intro i s t n b w st h
  obtain ⟨_, hu, b', w', st', rfl, hst⟩ := exec_sameButObs h n b w st
  exact ⟨_, hu, rfl, rfl, rfl, rfl, rfl, rfl, rfl, rfl, hst⟩

end Sys2Proof.Proofs
end

section
/-! PROOF. The invariant (spec 10_state.md R30, R32, R47): every instruction, every cycle and every host turn keeps it, so it
holds at the end of every run. -/

namespace Sys2Proof.Machine

/-! ## The invariant -/

/-- The invariant speaks of memory, the stack, pc, I and the status alone. -/
theorem Inv.of_eq {s t : State} (hs : Inv s) (hmem : t.mem = s.mem) (hst : t.stack = s.stack) (hpc : t.pc = s.pc)
    (hI : t.I = s.I) (hstatus : t.status = s.status) : Inv t where
  memory := hmem ▸ hs.memory
  depth := hst ▸ hs.depth
  returns := hst ▸ hs.returns
  pc := hpc ▸ hs.pc
  cause := fun c hc => by
    have hcause := hs.cause c (hstatus ▸ hc)
    cases c <;> simpa only [CauseHolds, hst, hpc, hI] using hcause

theorem Inv.raiseHalt {s : State} {c : HaltCause} (hs : Inv s) (hc : CauseHolds s c) : Inv (s.raiseHalt c) where
  memory := hs.memory
  depth := hs.depth
  returns := hs.returns
  pc := hs.pc
  cause := fun c' hc' => by
    obtain rfl := Status.halted.inj hc'
    cases c <;> exact hc

/-- In a running state the causes say nothing. -/
theorem Inv.of_running {s : State} (hr : s.status = .running) (hmem : Memory.wf s.mem) (hd : s.stack.length ≤ 16)
    (hret : ∀ w ∈ s.stack, w.toNat ≤ 0x1000) (hpc : s.pc.toNat ≤ 0x10FE) : Inv s where
  memory := hmem
  depth := hd
  returns := hret
  pc := hpc
  cause := fun c hc => by simp [hr] at hc

theorem Inv.hostTurn {s : State} (hs : Inv s) : Inv (hostTurn s) := by
  obtain ⟨_, _, _, _, _, _, _, h⟩ := hostTurn_eq s
  rw [h]
  exact hs.of_eq rfl rfl rfl rfl rfl

theorem Raises.causeHolds {s : State} {i : Instr} {c : HaltCause} (h : Raises s i c) (hd : s.stack.length ≤ 16) :
    CauseHolds s c := by
  cases h with
  | ret h => exact h
  | call _ h => exact Nat.le_antisymm hd h
  | drw | ldB | ldMemVx | ldVxMem => exact ⟨Nat.le_max_right _ _, rfl⟩
  | skp _ h | sknp _ h => exact h

/-- A store that reaches outside memory halts, and one inside it keeps the canonical form. -/
theorem State.accessOrHalt_storeBytes_wf {s : State} (h : Memory.wf s.mem) (ws : List Byte) :
    Memory.wf (s.accessOrHalt ws.length (s.storeBytes s.I.toNat ws)).mem := by
  obtain ⟨h0 | hin, hd⟩ | ⟨-, -, hh⟩ := s.accessOrHalt_cases ws.length (s.storeBytes s.I.toNat ws)
  · rw [hd, List.length_eq_zero_iff.1 h0]
    exact h
  · rw [hd]
    exact Memory.writeList_wf ws h hin
  · rw [hh]
    exact h

theorem exec_mem_wf {i : Instr} {s t : State} (h : exec i s = .next t) (hwf : Memory.wf s.mem) : Memory.wf t.mem := by
  by_cases hstore : .memory ∈ changedParts i
  · cases i with
    | ldB x => cases h; exact State.accessOrHalt_storeBytes_wf hwf (decimalDigits (s.reg x))
    | ldMemVx x =>
      cases h
      rw [← s.regsUpTo_length x]
      exact State.accessOrHalt_storeBytes_wf hwf (s.regsUpTo x)
    | _ => simp [changedParts] at hstore
  · rw [exec_mem h hstore]
    exact hwf

/-- What an instruction leaves of the stack: all of it, all but the newest entry, or one entry more, the advanced pc. -/
theorem exec_stack_cases {i : Instr} {s t : State} (h : exec i s = .next t) :
    t.stack = s.stack ∨ (∃ w, s.stack = w :: t.stack) ∨ (s.sp < 16 ∧ t.stack = s.pc :: s.stack) := by
  cases i with
  | ret =>
    obtain ⟨-, rfl⟩ | ⟨w, rest, hst, rfl⟩ := exec_ret_cases h
    · exact .inl rfl
    · exact .inr (.inl ⟨w, hst⟩)
  | call nnn =>
    obtain ⟨-, rfl⟩ | ⟨hsp, rfl⟩ := exec_call_cases h
    · exact .inl rfl
    · exact .inr (.inr ⟨hsp, rfl⟩)
  | _ => exact .inl ((exec_frame h).stack (by simp [changedParts]))

/-- What bounds pc after an instruction: the pc it starts at has advanced from inside memory, and every return address
is such a pc (10_state.md R30). -/
structure PcBounds (s : State) : Prop where
  low : 2 ≤ s.pc.toNat
  high : s.pc.toNat ≤ 0x1000
  returns : ∀ w ∈ s.stack, w.toNat ≤ 0x1000

theorem PcBounds.skipIf {s : State} (hb : PcBounds s) (taken : Bool) : (s.skipIf taken).pc.toNat ≤ 0x10FE := by
  have := hb.high
  cases taken with
  | false => exact hb.high.trans (by decide)
  | true =>
    rw [State.skipIf_pc, if_pos rfl, BitVec.toNat_add, BitVec.toNat_ofNat]
    omega

theorem PcBounds.keySkip {s : State} (hb : PcBounds s) (k : Byte) (down : Bool) :
    (s.keySkip k down).pc.toNat ≤ 0x10FE := by
  obtain ⟨-, heq⟩ | ⟨-, heq⟩ := s.keySkip_cases k down <;> rw [heq]
  · exact hb.skipIf _
  · exact hb.high.trans (by decide)

/-- A jump reaches at most 0xFFF + 0xFF, and a skip or a wait moves an advanced pc by 2 (10_state.md R30). -/
theorem exec_pc_le {i : Instr} {s t : State} (hb : PcBounds s) (h : exec i s = .next t) : t.pc.toNat ≤ 0x10FE := by
  have hhigh : s.pc.toNat ≤ 0x10FE := hb.high.trans (by decide)
  cases i with
  | ret =>
    obtain ⟨-, rfl⟩ | ⟨w, rest, hst, rfl⟩ := exec_ret_cases h
    · exact hhigh
    · exact (hb.returns w (hst ▸ List.mem_cons_self)).trans (by decide)
  | call nnn =>
    obtain ⟨-, rfl⟩ | ⟨-, rfl⟩ := exec_call_cases h
    · exact hhigh
    · rw [State.setPc_pc, addrOperand_toNat]
      omega
  | jp nnn =>
    cases h
    rw [State.setPc_pc, addrOperand_toNat]
    omega
  | jpV0 nnn =>
    cases h
    rw [State.setPc_pc, addrOperand_add_byteOffset_toNat]
    omega
  | seByte _ _ | sneByte _ _ | seReg _ _ | sneReg _ _ => cases h; exact hb.skipIf _
  | skp _ | sknp _ => cases h; exact hb.keySkip _ _
  | ldVxK x =>
    obtain ⟨-, rfl⟩ | ⟨k, -, rfl⟩ := exec_ldVxK_cases h
    · have := hb.low
      rw [State.setPc_pc, BitVec.toNat_sub, BitVec.toNat_ofNat]
      omega
    · exact hhigh
  | _ => exact (exec_frame h).pc (by simp [changedParts]) ▸ hhigh

/-- Of a bounded stack an instruction leaves a bounded one: what it pushes is the advanced pc, and only with room. -/
theorem exec_stack_bounds {i : Instr} {s t : State} (hd : s.stack.length ≤ 16) (hb : PcBounds s)
    (h : exec i s = .next t) : t.stack.length ≤ 16 ∧ ∀ w ∈ t.stack, w.toNat ≤ 0x1000 := by
  have hret := hb.returns
  obtain hst | ⟨w, hst⟩ | ⟨hsp, hst⟩ := exec_stack_cases h
  · rw [hst]
    exact ⟨hd, hret⟩
  · rw [hst] at hd hret
    exact ⟨Nat.le_of_succ_le hd, (List.forall_mem_cons.1 hret).2⟩
  · rw [hst]
    exact ⟨hsp, List.forall_mem_cons.2 ⟨hb.high, hret⟩⟩

/-- An instruction executed at an advanced pc keeps the invariant: if it halts, its cause is true of the state. -/
theorem exec_keeps_inv {i : Instr} {s t : State} (hs : Inv s) (hr : s.status = .running) (hb : PcBounds s)
    (h : exec i s = .next t) : Inv t := by
  cases ht : t.status with
  | halted c =>
    rw [eq_raiseHalt_of_exec_halted hr h ht]
    exact hs.raiseHalt ((exec_raises hr h ht).causeHolds hs.depth)
  | running =>
    obtain ⟨hdepth, hret⟩ := exec_stack_bounds hs.depth hb h
    exact .of_running ht (exec_mem_wf h hs.memory) hdepth hret (exec_pc_le hb h)

theorem cycle_keeps_inv {s t : State} (hs : Inv s) (h : cycle s = .next t) : Inv t := by
  obtain ⟨_, -, hc⟩ | ⟨-, hp, hc⟩ | ⟨_, hr, hp, -, -, hc⟩ | ⟨_, i, hr, hp, -, -, hc⟩ := cycle_cases s <;> rw [hc] at h
  · cases h
    exact hs
  · cases h
    exact hs.raiseHalt hp
  · cases h
    have hpc := s.advancePc_pc_toNat hp
    exact .of_running hr hs.memory hs.depth hs.returns (show s.advancePc.pc.toNat ≤ 0x10FE by omega)
  · have hpc := s.advancePc_pc_toNat hp
    have hb : PcBounds s.advancePc := ⟨by omega, by omega, hs.returns⟩
    have hadv : Inv s.advancePc := .of_running hr hs.memory hs.depth hs.returns (by omega)
    exact exec_keeps_inv hadv hr hb h

theorem step_keeps_inv {s t : State} (hs : Inv s) (h : step s = .next t) : Inv t := by
  obtain ⟨u, hu⟩ := cycle_answers_next s
  obtain rfl := Host.Outcome.next.inj ((step_of_cycle hu).symm.trans h)
  exact (cycle_keeps_inv hs hu).hostTurn

theorem run_keeps_inv {k : Nat} {s t : State} (hs : Inv s) (h : Host.Core.run Sys2Proof.core k s = .next t) :
    Inv t := by
  induction k generalizing s with
  | zero => cases h; exact hs
  | succ k ih =>
    obtain ⟨u, hu⟩ := Proofs.everyStepAnswersANextState s
    simp only [Host.Core.run, show Sys2Proof.core.step s = .next u from hu] at h
    exact ih (step_keeps_inv hs hu) h

theorem Inv.of_init {program : List Byte} (h : program.length ≤ 0xE00) :
    Inv (State.reset.storeBytes 0x200 program) :=
  .of_running rfl (Memory.writeList_wf program Memory.wf_reset (show 0x200 + program.length ≤ 4096 by omega))
    (Nat.zero_le 16) (List.forall_mem_nil _) (show (0x200#16 : Word).toNat ≤ 0x10FE by decide)

end Sys2Proof.Machine

namespace Sys2Proof.Proofs

open Sys2Proof.Machine

/-- Settles O54: the reset state is init of no program, and a program that fits is stored inside memory. -/
theorem initialStatesMeetTheInvariant : Obligations.InitialStatesMeetTheInvariant := by
  refine ⟨Inv.of_init (program := []) (by decide), fun program s h => ?_⟩
  by_cases hlen : program.length ≤ 0xE00
  · obtain rfl := eq_storeBytes_of_init h
    exact Inv.of_init hlen
  · rw [init_of_length_gt (by omega)] at h
    cases h

/-- Settles O55: the cycle keeps the invariant, instruction by instruction, and the host's turn touches nothing it
speaks of. -/
theorem everyStepKeepsTheInvariant : Obligations.EveryStepKeepsTheInvariant :=
  fun _ _ hs h => step_keeps_inv hs h

/-- Settles O56: by induction on the run the invariant holds at its end, and it says what each cause means. -/
theorem haltCausesAreTrueOfTheState : Obligations.HaltCausesAreTrueOfTheState := by
  intro k s t c hs h ht
  have hcause := (run_keeps_inv hs h).cause c ht
  cases c with
  | outOfBoundsFetch => exact .inl ⟨rfl, hcause⟩
  | stackUnderflow => exact .inr (.inl ⟨rfl, List.length_eq_zero_iff.2 hcause⟩)
  | stackOverflow => exact .inr (.inr (.inl ⟨rfl, hcause⟩))
  | outOfBoundsAccess a =>
    obtain ⟨hlow, hmax⟩ := hcause
    have := t.I.isLt
    exact .inr (.inr (.inr (.inl ⟨a, rfl, hlow, by omega⟩)))
  | badKeyIndex key => exact .inr (.inr (.inr (.inr ⟨key, rfl, hcause⟩)))

end Sys2Proof.Proofs
end

section
/-! PROOF. Clear and sprite draw (spec 44_display.md): the pixels and the collision flag of a blit in the spec's words
(`spriteCovers`), and what a second draw undoes. -/

namespace Sys2Proof.Machine

/-! ## The screen, pixel by pixel -/

/-- A screen is its 2048 pixels. -/
theorem Framebuffer.ext_pixel {fb fb' : Framebuffer}
    (h : ∀ x y, x < 64 → y < 32 → fb.pixel x y = fb'.pixel x y) : fb = fb' := by
  apply Vector.ext
  intro y hy
  apply BitVec.eq_of_getLsbD_eq
  intro x hx
  have hxy := h x y hx hy
  rwa [fb.pixel_eq_getLsbD hx hy, fb'.pixel_eq_getLsbD hx hy, getElem!_pos fb y hy, getElem!_pos fb' y hy] at hxy

/-- Coordinates wrap (44_display.md R270). -/
theorem Framebuffer.pixel_mod (fb : Framebuffer) (x y : Nat) : fb.pixel (x % 64) (y % 32) = fb.pixel x y := by
  have hcol : pixelCol (x % 64) = pixelCol x := Nat.mod_mod x 64
  have hrow : pixelRow (y % 32) = pixelRow y := Fin.ext (Nat.mod_mod y 32)
  simp only [Framebuffer.pixel, hcol, hrow]

/-! ## The blit in the spec's words -/

theorem spriteHits_iff_covers (s : State) (x y : Reg) (n : Nat) {px py : Nat} (hx : px < 64) (hy : py < 32) :
    spriteHits s.mem (s.reg x).toNat n (s.reg y).toNat s.I.toNat px py = true ↔ spriteCovers s x y n px py := by
  simp only [spriteHits, rowHits, List.any_eq_true, List.mem_range, Bool.and_eq_true, decide_eq_true_eq,
    Nat.mod_eq_of_lt hx, Nat.mod_eq_of_lt hy]
  constructor
  · rintro ⟨row, hrow, hpy, col, hcol, hbit, hpx⟩
    exact ⟨row, col, hrow, hcol, hbit, hpx.symm, hpy.symm⟩
  · rintro ⟨row, col, hrow, hcol, hbit, hpx, hpy⟩
    exact ⟨row, hrow, hpy.symm, col, hcol, hbit, hpx.symm⟩

/-- A draw turns over the pixels that the sprite covers, and no other (R272). -/
theorem State.pixel_blit (s : State) (x y : Reg) {n : Nat} (hn : n ≤ 15) (px py : Nat) :
    (s.blit x y n).fb.pixel px py =
      (s.fb.pixel px py ^^ spriteHits s.mem (s.reg x).toNat n (s.reg y).toNat s.I.toNat px py) :=
  Blit.pixel_drawRows s.mem _ n _ _ _ (by omega) px py

/-- Some pixel that the sprite covers was set (R273). -/
def SpriteCollides (s : State) (x y : Reg) (n : Nat) : Prop :=
  ∃ px py : Nat, px < 64 ∧ py < 32 ∧ spriteCovers s x y n px py ∧ s.fb.pixel px py = true

theorem State.collision_blit_iff (s : State) (x y : Reg) {n : Nat} (hn : n ≤ 15) :
    (s.blit x y n).collision = true ↔ SpriteCollides s x y n := by
  rw [State.blit, Blit.collision_drawRows _ _ _ _ _ _ (by omega)]
  simp only [Bool.false_or, List.any_eq_true, List.mem_range, Bool.and_eq_true]
  constructor
  · rintro ⟨row, hrow, col, hcol, hbit, hset⟩
    rw [← Framebuffer.pixel_mod] at hset
    exact ⟨_, _, Nat.mod_lt _ (by decide), Nat.mod_lt _ (by decide), ⟨row, col, hrow, hcol, hbit, rfl, rfl⟩, hset⟩
  · rintro ⟨_, _, -, -, ⟨row, col, hrow, hcol, hbit, rfl, rfl⟩, hset⟩
    rw [Framebuffer.pixel_mod] at hset
    exact ⟨row, hrow, col, hcol, hbit, hset⟩

/-! ## What a draw in bounds writes -/

theorem exec_drw_inBounds (x y : Reg) {n : Nat} {s : State} (h : n = 0 ∨ s.I.toNat + n ≤ 4096) :
    exec (.drw x y n) s = .next (s.drawn (s.blit x y n) n) := by
  rw [exec, execDrw, s.accessOrHalt_inBounds n _ h]

theorem State.drawn_fb (s : State) (b : Blit) (n : Nat) : (s.drawn b n).fb = b.fb := by
  unfold State.drawn
  split <;> rfl

theorem State.drawn_mem (s : State) (b : Blit) (n : Nat) : (s.drawn b n).mem = s.mem := by
  unfold State.drawn
  split <;> rfl

theorem State.reg_drawn_flag (s : State) (b : Blit) (n : Nat) : (s.drawn b n).reg 15 = flagByte b.collision := by
  unfold State.drawn
  split <;> simp

theorem flagByte_eq_one_iff (b : Bool) : flagByte b = 1#8 ↔ b = true := by
  cases b <;> decide

/-! ## The second draw of the same sprite -/

section
variable {s : State} {x y : Reg} {n : Nat} (hx : x ≠ 15) (hy : y ≠ 15)
include hx hy

/-- A draw writes neither its coordinates, nor I, nor memory: the sprite falls on the same pixels again. -/
theorem spriteHits_drawn (b : Blit) (px py : Nat) :
    spriteHits (s.drawn b n).mem ((s.drawn b n).reg x).toNat n ((s.drawn b n).reg y).toNat (s.drawn b n).I.toNat px py =
      spriteHits s.mem (s.reg x).toNat n (s.reg y).toNat s.I.toNat px py := by
  have hf := Frame.of_drawn s b n
  rw [s.drawn_mem, hf.regs x (by simpa using hx), hf.regs y (by simpa using hy), hf.index (by simp)]

theorem fb_blit_drawn (hn : n ≤ 15) : ((s.drawn (s.blit x y n) n).blit x y n).fb = s.fb := by
  refine Framebuffer.ext_pixel fun px py _ _ => ?_
  rw [State.pixel_blit _ x y hn, spriteHits_drawn hx hy, s.drawn_fb, s.pixel_blit x y hn, Bool.xor_assoc,
    Bool.xor_self, Bool.xor_false]

/-- The second draw collides where the sprite fell on a pixel that was clear. -/
theorem spriteCollides_drawn_iff (hn : n ≤ 15) :
    SpriteCollides (s.drawn (s.blit x y n) n) x y n ↔
      ∃ px py : Nat, px < 64 ∧ py < 32 ∧ spriteCovers s x y n px py ∧ s.fb.pixel px py = false := by
  refine exists_congr fun px => exists_congr fun py => and_congr_right fun hpx => and_congr_right fun hpy => ?_
  rw [← spriteHits_iff_covers _ x y n hpx hpy, ← spriteHits_iff_covers s x y n hpx hpy, spriteHits_drawn hx hy]
  refine and_congr_right fun hhit => ?_
  rw [s.drawn_fb, s.pixel_blit x y hn, hhit, Bool.xor_true, Bool.not_eq_true']

end

end Sys2Proof.Machine

namespace Sys2Proof.Proofs

open Sys2Proof.Machine

/-- Settles O46: the clear screen has no pixel set. -/
theorem clearScreenClearsEveryPixel : Obligations.ClearScreenClearsEveryPixel :=
  fun s => ⟨_, rfl, Framebuffer.pixel_clear, rfl, .of_setFb_setRedraw s _⟩

/-- Settles O47: a pixel ends as its old value flipped iff the sprite covers it. -/
theorem drawFlipsTheWrappedSpritePixels : Obligations.DrawFlipsTheWrappedSpritePixels := by
  intro x y n s hwf hin
  have hn : n ≤ 15 := of_decide_eq_true hwf
  refine ⟨_, exec_drw_inBounds x y hin, .of_drawn s _ n, fun px py hpx hpy => ?_⟩
  rw [s.drawn_fb, s.pixel_blit x y hn, ← spriteHits_iff_covers s x y n hpx hpy]
  refine ⟨fun hhit => by rw [hhit, Bool.xor_true], fun hmiss => ?_⟩
  rw [Bool.eq_false_of_not_eq_true hmiss, Bool.xor_false]

/-- Settles O48: VF is the blit's collision flag, which says that a covered pixel was set. -/
theorem drawSetsVFOnCollision : Obligations.DrawSetsVFOnCollision := by
  intro x y n s hwf hin
  have hn : n ≤ 15 := of_decide_eq_true hwf
  refine ⟨_, exec_drw_inBounds x y hin, fun hcol => ?_, fun hnone => ?_⟩
  · rw [s.reg_drawn_flag, (s.collision_blit_iff x y hn).2 hcol]
    rfl
  · rw [s.reg_drawn_flag, Bool.eq_false_of_not_eq_true (mt (s.collision_blit_iff x y hn).1 hnone)]
    rfl

/-- Settles O50: no row is read, so no address is checked, and the one write is VF. -/
theorem drawOfNoRowsOnlyClearsVF : Obligations.DrawOfNoRowsOnlyClearsVF :=
  fun x y s => ⟨_, exec_drw_inBounds x y (.inl rfl), s.reg_drawn_flag _ 0, .of_setReg s 15 _⟩

/-- Settles O51: the second draw turns the same pixels over again, and collides where the first set one. -/
theorem drawingTwiceRestoresTheScreen : Obligations.DrawingTwiceRestoresTheScreen := by
  intro x y n s t hwf hx hy hin h
  have hn : n ≤ 15 := of_decide_eq_true hwf
  obtain rfl := Host.Outcome.next.inj ((exec_drw_inBounds x y (.inr hin)).symm.trans h)
  have hI : (s.drawn (s.blit x y n) n).I = s.I := (Frame.of_drawn s _ n).index (by simp)
  refine ⟨_, exec_drw_inBounds x y (.inr (by rwa [hI])), ?_, ?_⟩
  · rw [State.drawn_fb, fb_blit_drawn hx hy hn]
  · rw [State.reg_drawn_flag, flagByte_eq_one_iff, State.collision_blit_iff _ x y hn, spriteCollides_drawn_iff hx hy hn]

end Sys2Proof.Proofs
end
